-- ==== Sys2Proof/Word.lean ====
section
/-! DEFINITION. The value types of the machine: the 3-bit cell of the program store, the 3-bit output
token. Register contents and `ip` are plain natural numbers, with no type of their own
(spec/00_scope.md R5, R6; spec/10_state.md R10, R13; spec/20_memory.md R20). -/

namespace Sys2Proof

/-- One cell of the program store: exactly 3 bits, a number 0 to 7 (R20, R30, R40). A larger number
has no representation, as R40 asks. -/
abbrev Cell := BitVec 3

/-- One element of the output sequence, a number 0 to 7 (R8, R14). -/
abbrev Token := BitVec 3

end Sys2Proof
end

