-- ==== Sys2Proof/Syntax.lean ====
section
/-! DEFINITION. The instruction set as syntax: one constructor per row of spec/opcode_table.json
(spec/30_encoding.md R36), each with its operand in the kind R35 gives it. -/

namespace Sys2Proof

/-- The three general registers (R10). -/
inductive Reg where
  | A
  | B
  | C
deriving DecidableEq, Repr

/-- A combo operand (R34). -/
inductive Combo where
  /-- Operand cell 0 to 3: the number itself. -/
  | lit (k : BitVec 2)
  /-- Operand cell 4, 5 or 6: the live value of `A`, `B` or `C`. -/
  | reg (r : Reg)
  /-- Operand cell 7: the illegal combo operand. The instruction can be written down and fetched;
  executing it raises `InvalidOperand` (R37, R65). -/
  | seven
deriving DecidableEq, Repr

/-- The eight instructions (R36). -/
inductive Instr where
  /-- opcode 0, combo operand (R51) -/
  | adv (x : Combo)
  /-- opcode 1, literal operand (R54) -/
  | bxl (x : Cell)
  /-- opcode 2, combo operand (R55) -/
  | bst (x : Combo)
  /-- opcode 3, literal operand: an absolute cell index (R57) -/
  | jnz (x : Cell)
  /-- opcode 4, the operand cell is fetched and ignored (R56); it is kept so that no bit of the
  encoding is dropped -/
  | bxc (x : Cell)
  /-- opcode 5, combo operand (R59) -/
  | out (x : Combo)
  /-- opcode 6, combo operand (R52) -/
  | bdv (x : Combo)
  /-- opcode 7, combo operand (R53) -/
  | cdv (x : Combo)
deriving DecidableEq, Repr

end Sys2Proof
end

