-- ==== Sys2Proof/WellFormed.lean ====
section
/-! DEFINITION. Which instructions have a legal operand (spec/30_encoding.md R37) and which programs are
well-formed (R40). Neither is a precondition of the step: the rules say what happens in every case. -/

namespace Sys2Proof

/-- A combo operand other than 7 (R34). -/
def Combo.wellFormed : Combo → Bool
  | .lit _ => true
  | .reg _ => true
  | .seven => false

/-- Not one of the five words with an illegal operand (R37). -/
def Instr.wellFormed : Instr → Bool
  | .adv x => x.wellFormed
  | .bxl _ => true
  | .bst x => x.wellFormed
  | .jnz _ => true
  | .bxc _ => true
  | .out x => x.wellFormed
  | .bdv x => x.wellFormed
  | .cdv x => x.wellFormed

/-- A well-formed program has even length (R40 b); that every cell is in 0..7 (R40 a) holds by the
type. The empty program is well-formed. -/
def programWellFormed (P : List Cell) : Bool := P.length % 2 == 0

end Sys2Proof
end

