-- ==== Sys2Proof/Decode.lean ====
section
/-! DEFINITION. Decoding cells to instructions, and the encoder (spec/30_encoding.md R30 to R37, R40;
spec/opcode_table.json). -/

namespace Sys2Proof

/-- Why a sequence does not decode. -/
inductive DecodeError where
  /-- There is no cell at all. -/
  | noCell
  /-- One cell remains: an opcode without its operand (R32). -/
  | incompletePair
  /-- A number above 7 is no cell (R40). -/
  | cellAbove7 (v : Nat)
deriving DecidableEq, Repr

/-- A number as a cell, refused when it is above 7 (R40, decision D4). -/
def cellOfNat (v : Nat) : Except DecodeError Cell :=
  if v < 8 then .ok (BitVec.ofNat 3 v) else .error (.cellAbove7 v)

/-- A list of numbers as cells, refused when it contains a number above 7: the boundary where a
program is built (R40, decision D4). -/
def cellsOfNats : List Nat → Except DecodeError (List Cell)
  | [] => .ok []
  | v :: vs =>
    match cellOfNat v with
    | .error e => .error e
    | .ok c =>
      match cellsOfNats vs with
      | .error e => .error e
      | .ok cs => .ok (c :: cs)

/-- The operand cell of a combo instruction (R34). -/
def comboOfCell (x : Cell) : Combo :=
  match x.toFin with
  | 0 => .lit 0
  | 1 => .lit 1
  | 2 => .lit 2
  | 3 => .lit 3
  | 4 => .reg .A
  | 5 => .reg .B
  | 6 => .reg .C
  | 7 => .seven

/-- The opcode map (R36): the opcode selects the instruction and the operand kind; all eight values
are defined (R31). -/
def decodePair (op x : Cell) : Instr :=
  match op.toFin with
  | 0 => .adv (comboOfCell x)
  | 1 => .bxl x
  | 2 => .bst (comboOfCell x)
  | 3 => .jnz x
  | 4 => .bxc x
  | 5 => .out (comboOfCell x)
  | 6 => .bdv (comboOfCell x)
  | 7 => .cdv (comboOfCell x)

/-- Reads one instruction from the front of a sequence of cells and answers the rest: the cell at the
lower address is the opcode, the next one the operand (R21, R30). -/
def decode : List Cell → Except DecodeError (Instr × List Cell)
  | [] => .error .noCell
  | [_] => .error .incompletePair
  | op :: x :: rest => .ok (decodePair op x, rest)

/-- The operand cell that encodes a combo operand (R34). -/
def cellOfCombo : Combo → Cell
  | .lit k => k.setWidth 3
  | .reg .A => 4
  | .reg .B => 5
  | .reg .C => 6
  | .seven => 7

/-- The opcode cell of an instruction (R36). -/
def opcodeCell : Instr → Cell
  | .adv _ => 0
  | .bxl _ => 1
  | .bst _ => 2
  | .jnz _ => 3
  | .bxc _ => 4
  | .out _ => 5
  | .bdv _ => 6
  | .cdv _ => 7

/-- The operand cell of an instruction (R35). -/
def operandCell : Instr → Cell
  | .adv x => cellOfCombo x
  | .bxl x => x
  | .bst x => cellOfCombo x
  | .jnz x => x
  | .bxc x => x
  | .out x => cellOfCombo x
  | .bdv x => cellOfCombo x
  | .cdv x => cellOfCombo x

/-- The two cells of an instruction, the opcode first (R21, R30). -/
def encode (i : Instr) : List Cell := [opcodeCell i, operandCell i]

/-- The packed word `iw = opcode * 8 + operand` of R30, a notation of the spec's tables. -/
def packWord (op x : Cell) : Nat := op.toNat * 8 + x.toNat

/-- The two cells of a packed word: `iw[5:3]` and `iw[2:0]` (R30). A number of more than 6 bits is no
packed word. -/
def unpackWord (w : Nat) : Option (Cell × Cell) :=
  if w < 64 then some (BitVec.ofNat 3 (w / 8), BitVec.ofNat 3 (w % 8)) else none

/-- The instruction the decoder reads from a word numbered as spec/opcode_table.json numbers it. The
table has one word per instruction, `iw`, so bit 0 is the operand's least significant bit; only the
low `nbits` bits of `w` count. -/
def decodeTableWord (nbits w : Nat) : Option Instr :=
  match unpackWord (w % 2 ^ nbits) with
  | none => none
  | some (op, x) =>
    match decode [op, x] with
    | .ok (i, _) => some i
    | .error _ => none

end Sys2Proof
end

