-- ==== Sys2Proof/Machine/Arith.lean ====
section
/-! DEFINITION. The arithmetic of the machine, complete (spec/40_step_cycle.md R50; spec/00_scope.md R6):
exact operations on natural numbers. -/

namespace Sys2Proof.Machine

/-- `a >> n = floor(a / 2^n)`; the amount is not reduced modulo any width (R50). -/
def shiftRight (a n : Nat) : Nat := a >>> n

/-- Exclusive or of the binary expansions, the shorter extended with zeros (R50). -/
def xorNat (a b : Nat) : Nat := a ^^^ b

/-- `a mod 8`, the three low bits (R50), as a number. -/
def mod8 (a : Nat) : Nat := a % 8

/-- The token an `out` appends: the three low bits of a value (R50, R59). -/
def tokenOf (a : Nat) : Token := BitVec.ofNat 3 (mod8 a)

/-- `w(v)`, the number of bits of `v`, with `w(0) = 0` (R11). -/
def bitLength (v : Nat) : Nat := if v = 0 then 0 else v.log2 + 1

end Sys2Proof.Machine
end

