-- ==== Sys2Proof/Machine/State.lean ====
section
/-! DEFINITION. The machine's state, what a step can stop with, and the state after reset
(spec/10_state.md R10 to R19). -/

namespace Sys2Proof.Machine

/-- The program store: an ordered, 0-indexed sequence of 3-bit cells; cell `i` exists for
`i < length`, and the length is `L` (R20, R24). Equal stores are equal lists. Assumption 2. -/
abbrev Memory := List Cell

/-- `fault.kind` when it is not `none` (R16, R62). -/
inductive FaultKind where
  | programError
  | invalidOperand
deriving DecidableEq, Repr

/-- `fault.cause` (R16, R66). -/
inductive FaultCause where
  /-- `ip = L - 1`: one cell remains (R63). -/
  | incompletePair
  /-- A taken `jnz` whose target `t` is at or beyond `L` (R64). -/
  | jumpOutOfRange (t : Cell)
  /-- A combo operand cell of 7 (R65). -/
  | combo7
deriving DecidableEq, Repr

/-- The fault record `(kind, loc, cause)` (R16). -/
structure FaultRecord where
  kind  : FaultKind
  loc   : Nat
  cause : FaultCause
deriving DecidableEq, Repr

/-- The machine's state (R10, R13, R14, R16), with the program store beside it (R15; assumption 1). -/
structure State where
  /-- The instruction pointer (R13). -/
  ip    : Nat
  /-- Register `A` (R10). -/
  A     : Nat
  /-- Register `B` (R10). -/
  B     : Nat
  /-- Register `C` (R10). -/
  C     : Nat
  /-- The output sequence, oldest token first (R14). -/
  out   : List Token
  /-- The fault record; `none` is `fault.kind = none` (R16). -/
  fault : Option FaultRecord
  /-- The program `P` of the run; its length is `L`. No instruction changes it (R15, R28). -/
  prog  : Memory
deriving DecidableEq, Repr

/-- Why a step has no next state. Neither is one of the spec's fault kinds: an instruction that
raises `ProgramError` or `InvalidOperand` has a next state, the one that holds the fault record
(R68). Assumption 4. -/
inductive Fault where
  /-- Raised by the step of a halted state: the run has ended normally and there is no step (R42,
  decision D16). Safe: the machine stops. -/
  | halted
  /-- Raised by the step of a faulted state, with its record: the run has failed and there is no step
  (R69, decision D16). Safe: the machine stops. -/
  | failed (r : FaultRecord)
deriving DecidableEq, Repr

/-- Why the model gives no meaning. -/
inductive Refusal where
  /-- Raised by `exec` for an instruction that has no meaning yet; no arm of this model does. Safe. -/
  | notModelled (mnemonic : String)
deriving DecidableEq, Repr

/-- The start state of R19 and R76 with what a launch supplies at the values assumption 5 names: the
empty program and 0 in `A`, `B` and `C`. `launch` of Machine/Launch.lean is the start state of any
launch. -/
def State.reset : State where
  ip    := 0
  A     := 0
  B     := 0
  C     := 0
  out   := []
  fault := none
  prog  := []

end Sys2Proof.Machine
end

