-- ==== Sys2Proof/Machine/Ops.lean ====
section
/-! DEFINITION. The named operations over the program store, the registers, the instruction pointer and
the output, and taking a fault (spec/20_memory.md; spec/40_step_cycle.md R43, R45; spec/60_exceptions.md
R62 to R70). -/

namespace Sys2Proof.Machine

/-! ### The program store -/

/-- The content of one cell: defined for `a < L` only (R20). -/
def readCell (P : Memory) (a : Nat) : Option Cell := P[a]?

/-- `MemRead(addr, n)`: `n` consecutive cells, defined only when `addr + n <= L` (R7). All of them are
read or none (R23). -/
def memRead (P : Memory) (addr n : Nat) : Option (List Cell) :=
  if addr + n ≤ P.length then some ((P.drop addr).take n) else none

/-- The form of a program store: every cell is a number below 8 (R40 a). The list has one spelling for
each store, so there is no other condition. -/
abbrev Memory.wf (P : Memory) : Prop := ∀ c ∈ P, c.toNat < 8

/-- Puts a cell into a store that is being built, cells of 0 filling a gap below it. No instruction and
no step does this (R28): it serves `withFetchWord` alone (assumption 6). -/
def placeCell (P : Memory) (a : Nat) (c : Cell) : Memory :=
  if a < P.length then P.set a c else P ++ List.replicate (a - P.length) 0 ++ [c]

/-! ### Registers, instruction pointer, output -/

/-- A register read (R7). -/
def State.reg (s : State) : Reg → Nat
  | .A => s.A
  | .B => s.B
  | .C => s.C

/-- A register write (R7). -/
def State.setReg (s : State) (r : Reg) (v : Nat) : State :=
  match r with
  | .A => { s with A := v }
  | .B => { s with B := v }
  | .C => { s with C := v }

/-- The default advance `ip <- ip + 2` (R45). -/
def State.advance (s : State) : State := { s with ip := s.ip + 2 }

/-- The redirect of a taken `jnz` (R57). -/
def State.jumpTo (s : State) (t : Nat) : State := { s with ip := t }

/-- `out <- out ++ [t]` (R14, R59). -/
def State.appendToken (s : State) (t : Token) : State := { s with out := s.out ++ [t] }

/-! ### Faults

There is no return from a fault: no instruction leaves the faulted state, and a new launch is the only
way out of it (R69). -/

/-- Which kind a cause belongs to (R62, R16). -/
def kindOfCause : FaultCause → FaultKind
  | .incompletePair => .programError
  | .jumpOutOfRange _ => .programError
  | .combo7 => .invalidOperand

/-- The numeric code of a fault kind, 0 for none (R62, decision D9). -/
def faultCode : Option FaultRecord → Nat
  | none => 0
  | some r =>
    match r.kind with
    | .programError => 1
    | .invalidOperand => 2

/-- Fault entry, shared by the three causes: the fault record becomes (kind, `ip`, cause) and nothing
else changes (R66, R68; decisions D7, D10). -/
def State.takeFault (s : State) (c : FaultCause) : State :=
  { s with fault := some { kind := kindOfCause c, loc := s.ip, cause := c } }

end Sys2Proof.Machine
end

