-- ==== Sys2Proof/Machine/Operands.lean ====
section
/-! DEFINITION. The two operand kinds (spec/30_encoding.md R33, R34) and the shared form of an instruction
with a combo operand (spec/40_step_cycle.md R44). -/

namespace Sys2Proof.Machine

/-- A literal operand: the cell itself, unsigned (R33). -/
def literal (x : Cell) : Nat := x.toNat

/-- `combo(x)`, from the registers as they are before the step, with no truncation; 7 has no value
(R34). -/
def combo (x : Combo) (s : State) : Option Nat :=
  match x with
  | .lit k => some k.toNat
  | .reg r => some (s.reg r)
  | .seven => none

/-- Resolves a combo operand and continues with its value; an operand of 7 raises `InvalidOperand` and
nothing else of the step happens, whatever the value would have been used for (R44, R65). -/
def withCombo (x : Combo) (s : State) (k : Nat → State) : Host.Outcome State Fault Refusal :=
  match combo x s with
  | some v => .next (k v)
  | none => .next (s.takeFault .combo7)

end Sys2Proof.Machine
end

