-- ==== Sys2Proof/Machine/BLogicFamily.lean ====
section
/-! DEFINITION. `bxl`, `bst`, `bxc`: the instructions that write `B` without shifting `A`
(spec/42_b_logic_family.md R54 to R56). -/

namespace Sys2Proof.Machine

/-- `bxl x`: `B <- B XOR x`, `x` the raw operand cell (R54). -/
def execBxl (x : Cell) (s : State) : Host.Outcome State Fault Refusal :=
  .next (s.setReg .B (xorNat s.B (literal x))).advance

/-- `bst x`: `B <- combo(x) mod 8` (R55). -/
def execBst (x : Combo) (s : State) : Host.Outcome State Fault Refusal :=
  withCombo x s fun v => (s.setReg .B (mod8 v)).advance

/-- `bxc x`: `B <- B XOR C`; the operand cell is ignored, so 7 raises nothing (R56). -/
def execBxc (_x : Cell) (s : State) : Host.Outcome State Fault Refusal :=
  .next (s.setReg .B (xorNat s.B s.C)).advance

end Sys2Proof.Machine
end

