-- ==== Sys2Proof/Machine/Flags.lean ====
section
/-! DEFINITION. The machine has no flags, condition codes or predicates (spec/10_state.md R17). What
stands here is the condition `jnz` tests and the derived status of R16, none of which is stored. -/

namespace Sys2Proof.Machine

/-- The test of `jnz`: the whole unbounded value of `A` (R17, R50). -/
def State.aIsZero (s : State) : Bool := s.A == 0

/-- `L`, the program's length (R15). -/
def State.progLen (s : State) : Nat := s.prog.length

/-- `running`: `fault = none and ip < L` (R16). -/
def State.running (s : State) : Bool := s.fault.isNone && decide (s.ip < s.progLen)

/-- `halted`: `fault = none and ip >= L` (R16). -/
def State.halted (s : State) : Bool := s.fault.isNone && decide (s.progLen ≤ s.ip)

/-- `faulted`: `fault.kind != none` (R16). -/
def State.faulted (s : State) : Bool := s.fault.isSome

end Sys2Proof.Machine
end

