-- ==== Sys2Proof/Machine/Control.lean ====
section
/-! DEFINITION. `jnz`, the one control transfer (spec/43_jnz.md R57). -/

namespace Sys2Proof.Machine

/-- `jnz x`: not taken when `A = 0` (the operand is then not examined); taken to a cell of the program,
odd or even; a taken jump to `x >= L` raises `ProgramError` (R57, decisions D5 and D6). -/
def execJnz (x : Cell) (s : State) : Host.Outcome State Fault Refusal :=
  if s.aIsZero then .next s.advance
  else if s.progLen ≤ literal x then .next (s.takeFault (.jumpOutOfRange x))
  else .next (s.jumpTo (literal x))

end Sys2Proof.Machine
end

