-- ==== Sys2Proof/Machine/Output.lean ====
section
/-! DEFINITION. `out`, the one instruction that emits a token (spec/44_out.md R59). -/

namespace Sys2Proof.Machine

/-- `out x`: appends `combo(x) mod 8` to the output sequence (R59). -/
def execOut (x : Combo) (s : State) : Host.Outcome State Fault Refusal :=
  withCombo x s fun v => (s.appendToken (tokenOf v)).advance

end Sys2Proof.Machine
end

