-- ==== Sys2Proof/Machine/ShiftFamily.lean ====
section
/-! DEFINITION. `adv`, `bdv`, `cdv`: `A >> combo(x)` into `A`, `B` or `C` (spec/41_shift_family.md R51 to
R53). -/

namespace Sys2Proof.Machine

/-- The value the family computes goes to `dst`; `A` and the amount are those from before the step
(R46). -/
def shiftInto (dst : Reg) (x : Combo) (s : State) : Host.Outcome State Fault Refusal :=
  withCombo x s fun v => (s.setReg dst (shiftRight s.A v)).advance

/-- `adv x` (R51). -/
def execAdv (x : Combo) (s : State) : Host.Outcome State Fault Refusal := shiftInto .A x s

/-- `bdv x` (R52). -/
def execBdv (x : Combo) (s : State) : Host.Outcome State Fault Refusal := shiftInto .B x s

/-- `cdv x` (R53). -/
def execCdv (x : Combo) (s : State) : Host.Outcome State Fault Refusal := shiftInto .C x s

end Sys2Proof.Machine
end

