-- ==== Sys2Proof/Machine/Fetch.lean ====
section
/-! DEFINITION. The fetch and one cycle of the machine (spec/40_step_cycle.md R41 to R44), and how an
instruction is placed where the next fetch reads it. -/

namespace Sys2Proof.Machine

/-- The fetch `MemRead(ip, 2)`: the opcode cell and the operand cell, or nothing when one of them does
not exist (R43). -/
def fetch (s : State) : Option (Cell × Cell) :=
  match memRead s.prog s.ip 2 with
  | some [op, x] => some (op, x)
  | _ => none

/-- One step in the phase order of R41: no step on a faulted state (R69) or a halted one (R42), the
fault of an incomplete pair (R43), else the decoded instruction's effect (R44). -/
def cycle (s : State) : Host.Outcome State Fault Refusal :=
  match s.fault with
  | some r => .fault (.failed r)
  | none =>
    if s.progLen ≤ s.ip then .fault .halted
    else
      match fetch s with
      | none => .next (s.takeFault .incompletePair)
      | some (op, x) => exec (decodePair op x) s

/-- The state whose next step fetches and runs the instruction of a table word: its two cells stand at
`ip` and `ip + 1`, and no fault is recorded, since a faulted state has no step. A number that is no
packed word places nothing. Assumption 6. -/
def placeFetchWord (s : State) (nbits w : Nat) : State :=
  match unpackWord (w % 2 ^ nbits) with
  | none => s
  | some (op, x) =>
    { s with fault := none, prog := placeCell (placeCell s.prog s.ip op) (s.ip + 1) x }

end Sys2Proof.Machine
end

