-- ==== Sys2Proof/Machine/Step.lean ====
section
/-! DEFINITION. The step (spec/40_step_cycle.md R41), and the state a step runs a given instruction
from. -/

namespace Sys2Proof.Machine

/-- One step of the machine (R41). -/
def step (s : State) : Host.Outcome State Fault Refusal := cycle s

/-- The state `s` with the instruction of a table word where `step` fetches its next instruction. -/
def State.withFetchWord (s : State) (nbits w : Nat) : State := placeFetchWord s nbits w

end Sys2Proof.Machine
end

