-- ==== Sys2Proof/Config.lean ====
section
/-! DEFINITION. What an implementation fixes (spec/00_scope.md R5). The machine has no free value: the
step function has exactly one result for every state (spec/40_step_cycle.md R49), and
spec/93_implementation_defined.md lists nothing a model must leave undetermined. -/

namespace Sys2Proof

/-- `REG_WIDTH` (R5, decision D1): the width of a fixed-width realisation's registers. `none` is the
architectural machine, whose registers are unbounded. Only the check on a launch reads it (R80). -/
def Config.regWidth : Option Nat := none

/-- The least `REG_WIDTH` a fixed-width realisation may have (R5, R10). -/
def Config.minRegWidth : Nat := 128

end Sys2Proof
end

