-- ==== Sys2Proof/Machine/Launch.lean ====
section
/-! DEFINITION. The start of a run, which is the only reset this hardware has
(spec/70_reset_and_hazards.md R76 to R80), and the checks made on a launch before it. -/

namespace Sys2Proof.Machine

/-- A launch `(P, A0, B0, C0)` (R8, R76). -/
structure Launch where
  prog : Memory
  A0   : Nat
  B0   : Nat
  C0   : Nat
deriving DecidableEq, Repr

/-- Why a launch is refused before any state exists. -/
inductive LaunchError where
  /-- The program contains a number that is no cell (R40, R80 item 1). -/
  | badCell (e : DecodeError)
  /-- The realisation's width is below the least one allowed (R5, R10). -/
  | widthTooSmall (w : Nat)
  /-- An initial value does not fit the realisation's registers (R80 item 2). -/
  | valueTooWide (r : Reg) (v : Nat)
deriving DecidableEq, Repr

/-- The start state of a run: nothing of an earlier run survives (R19, R76, R79). -/
def launch (l : Launch) : State where
  ip    := 0
  A     := l.A0
  B     := l.B0
  C     := l.C0
  out   := []
  fault := none
  prog  := l.prog

/-- The width check a fixed-width realisation makes on a launch; with no width every value fits
(R80 item 2, decision D1). -/
def checkWidth (w : Option Nat) (l : Launch) : Except LaunchError Unit :=
  match w with
  | none => .ok ()
  | some w =>
    if w < Config.minRegWidth then .error (.widthTooSmall w)
    else if 2 ^ w ≤ l.A0 then .error (.valueTooWide .A l.A0)
    else if 2 ^ w ≤ l.B0 then .error (.valueTooWide .B l.B0)
    else if 2 ^ w ≤ l.C0 then .error (.valueTooWide .C l.C0)
    else .ok ()

/-- A launch from plain numbers, for a realisation of width `w`: refused when the program contains a
number above 7 (R40) or a register value does not fit (R80). -/
def launchWith (w : Option Nat) (cells : List Nat) (a b c : Nat) : Except LaunchError State :=
  match cellsOfNats cells with
  | .error e => .error (.badCell e)
  | .ok P =>
    match checkWidth w ⟨P, a, b, c⟩ with
    | .error e => .error e
    | .ok _ => .ok (launch ⟨P, a, b, c⟩)

/-- A launch of this machine, whose registers are `Config.regWidth` wide: unbounded. -/
def launchNumbers (cells : List Nat) (a b c : Nat) : Except LaunchError State :=
  launchWith Config.regWidth cells a b c

/-- What the host should check of one instruction of a program of length `L`, and the engine does not:
a `jnz` literal is even and below `L`, a combo operand is not 7 (R80, R88). -/
def hostChecksInstr (L : Nat) (i : Instr) : Bool :=
  match i with
  | .jnz x => x.toNat % 2 == 0 && decide (x.toNat < L)
  | .adv x => x.wellFormed
  | .bxl _ => true
  | .bst x => x.wellFormed
  | .bxc _ => true
  | .out x => x.wellFormed
  | .bdv x => x.wellFormed
  | .cdv x => x.wellFormed

/-- The host's checks on the pairs of a sequence of cells, read from an even cell on; a lone last cell
fails them (the even length of R40). -/
def hostChecksPairs (L : Nat) : List Cell → Bool
  | [] => true
  | [_] => false
  | op :: x :: rest => hostChecksInstr L (decodePair op x) && hostChecksPairs L rest

/-- The checks R80 recommends to the host. They are no precondition of a step. -/
def hostChecks (P : Memory) : Bool := hostChecksPairs P.length P

end Sys2Proof.Machine
end

