-- ==== Sys2Proof/Machine/Ports.lean ====
section
/-! DEFINITION. The block seen at its ports (spec/70_reset_and_hazards.md R82, R84, R89; decisions D12,
D13). The ports add no behaviour to the step. A port whose value has no meaning in a state is `none`
there (assumption 9). -/

namespace Sys2Proof.Machine

/-- The input ports at a clock edge; the program store and `prog_len` stand outside the block and are
taken over with `start` (assumption 10). -/
structure PortsIn where
  start : Bool
  a0    : Nat
  b0    : Nat
  c0    : Nat
  prog  : Memory
deriving DecidableEq, Repr

/-- The output ports. -/
structure PortsOut where
  progAddr  : Nat
  outValid  : Bool
  outToken  : Option Token
  halted    : Bool
  faultKind : Nat
  faultLoc  : Option Nat
  regA      : Nat
  regB      : Nat
  regC      : Nat
deriving DecidableEq, Repr

/-- The cells at `prog_op` and `prog_arg`: nothing where the address is not below `L` (R82). -/
def progPorts (s : State) : Option Cell × Option Cell :=
  (readCell s.prog s.ip, readCell s.prog (s.ip + 1))

/-- The token of a step that executes `out` without fault (R82). It depends on the state alone: whether
`start` masks it in the cycle whose edge launches is not stated by R82, and the model shows the token of the
`out` that is then abandoned as valid. DESIGN CHOICE, assumption 21. -/
def tokenPort (s : State) : Option Token :=
  if s.running then
    match fetch s with
    | none => none
    | some (op, x) =>
      match decodePair op x with
      | .out y => (combo y s).map tokenOf
      | .adv _ => none
      | .bxl _ => none
      | .bst _ => none
      | .jnz _ => none
      | .bxc _ => none
      | .bdv _ => none
      | .cdv _ => none
  else none

/-- The output ports in a state (R82), with no input: `start` masks none of them (DESIGN CHOICE,
assumption 21). -/
def portsOf (s : State) : PortsOut where
  progAddr  := s.ip
  outValid  := (tokenPort s).isSome
  outToken  := tokenPort s
  halted    := s.halted
  faultKind := faultCode s.fault
  faultLoc  := s.fault.map (·.loc)
  regA      := s.A
  regB      := s.B
  regC      := s.C

/-- One rising clock edge: `start` launches and discards whatever run there was (R82, R84); otherwise
one step while running, and the halted and faulted states hold (R89). -/
def clockEdge (inp : PortsIn) (s : State) : State :=
  if inp.start then launch ⟨inp.prog, inp.a0, inp.b0, inp.c0⟩
  else
    match step s with
    | .next t => t
    | .fault _ => s
    | .refused _ => s

/-- The fault cause as R82 reads it off the ports: it has no port of its own. -/
def causeFromPorts (P : Memory) (p : PortsOut) : Option FaultCause :=
  match p.faultKind, p.faultLoc with
  | 2, some _ => some .combo7
  | 1, some loc =>
    if loc + 1 = P.length then some .incompletePair
    else (readCell P (loc + 1)).map .jumpOutOfRange
  | _, _ => none

end Sys2Proof.Machine
end

