-- ==== Sys2Proof/Machine/Run.lean ====
section
/-! DEFINITION. A run built from steps, with a runner's step budget (spec/40_step_cycle.md R47, R48;
spec/70_reset_and_hazards.md R81; decision D15). The engine itself has no step counter. -/

namespace Sys2Proof.Machine

/-- How far a run got within a budget. -/
inductive RunResult where
  /-- The run halted in this state (R42, R47 a). -/
  | halted (s : State)
  /-- The run failed with this record; it has no output result (R47 b, R70). -/
  | failed (r : FaultRecord)
  /-- The budget was used up in this running state: neither a halt nor a fault, and no result (D15). -/
  | outOfBudget (s : State)
deriving DecidableEq, Repr

/-- The end of a run is defined by the state alone (R81). -/
def resultAt (s : State) : RunResult :=
  match s.fault with
  | some r => .failed r
  | none => if s.halted then .halted s else .outOfBudget s

/-- At most `n` steps from `s` (R47). -/
def runWithin : Nat → State → RunResult
  | 0, s => resultAt s
  | n + 1, s =>
    match step s with
    | .next t => runWithin n t
    | .fault _ => resultAt s
    | .refused _ => resultAt s

/-- What the source's interface returns of a run: the output sequence of one that halted, nothing of one
that failed (R47, R70, R81). -/
def outputOf : RunResult → Option (List Token)
  | .halted s => some s.out
  | .failed _ => none
  | .outOfBudget _ => none

end Sys2Proof.Machine
end

