-- ==== Sys2Proof/Safety.lean ====
section
/-! DEFINITION. What a legal state and a safe run are, in the terms the claims use. -/

namespace Sys2Proof.Machine

/-- `0 <= ip <= L` (R13). -/
def IpInBounds (s : State) : Prop := s.ip ≤ s.progLen

/-- A fault record says of its state what the three causes mean: the location is the unchanged `ip`, the
kind is the cause's, and the condition that raises the cause holds there (R63 to R66, R68). -/
def RecordMatches (s : State) (r : FaultRecord) : Prop :=
  r.loc = s.ip ∧ r.kind = kindOfCause r.cause ∧
  match r.cause with
  | .incompletePair => s.ip + 1 = s.progLen
  | .jumpOutOfRange t =>
    readCell s.prog s.ip = some 3 ∧ readCell s.prog (s.ip + 1) = some t ∧ s.A ≠ 0 ∧
      s.progLen ≤ t.toNat
  | .combo7 =>
    (∃ op, readCell s.prog s.ip = some op ∧ (op = 0 ∨ op = 2 ∨ op = 5 ∨ op = 6 ∨ op = 7)) ∧
      readCell s.prog (s.ip + 1) = some 7

/-- The invariant of the machine: the instruction pointer is in bounds and a fault record matches the
state it stands in. -/
def Inv (s : State) : Prop := IpInBounds s ∧ ∀ r, s.fault = some r → RecordMatches s r

/-- `W` of R11, the width of the register file. -/
def regFileWidth (s : State) : Nat :=
  max (max (bitLength s.A) (bitLength s.B)) (max (bitLength s.C) 3)

/-- Every register fits in `w` bits. -/
def FitsWidth (w : Nat) (s : State) : Prop := s.A < 2 ^ w ∧ s.B < 2 ^ w ∧ s.C < 2 ^ w

/-- A run never ends: every number of steps leads to a running state (R48). -/
def Hangs (s : State) : Prop :=
  ∀ k, ∃ t, Host.Core.run Sys2Proof.core k s = .next t ∧ t.running = true

/-- Which registers a combo operand reads (R12, R34). -/
def comboReads : Combo → List Reg
  | .lit _ => []
  | .reg r => [r]
  | .seven => []

/-- The read columns of R12's table. -/
def instrReads : Instr → List Reg
  | .adv x => .A :: comboReads x
  | .bxl _ => [.B]
  | .bst x => comboReads x
  | .jnz _ => [.A]
  | .bxc _ => [.B, .C]
  | .out x => comboReads x
  | .bdv x => .A :: comboReads x
  | .cdv x => .A :: comboReads x

/-- The registers in the write column of R12's table. -/
def instrWrites : Instr → List Reg
  | .adv _ => [.A]
  | .bxl _ => [.B]
  | .bst _ => [.B]
  | .jnz _ => []
  | .bxc _ => [.B]
  | .out _ => []
  | .bdv _ => [.B]
  | .cdv _ => [.C]

end Sys2Proof.Machine
end

