-- ==== Sys2Proof/Certificates/Slice0/Obligations.lean ====
section
/-! DEFINITION. The statements for the provers. Each docstring names the rule of spec/ it formalises, or
the sections it rests on and, where the spec or the model made a choice, the decision. A faulting
instruction has a next state, the one that holds the fault record (R68; assumption 3). -/

open Sys2Proof Sys2Proof.Machine

/-! ### Encoding -/

/-- One word of each row of the opcode table, written out from R30's packing (octal: opcode digit,
operand digit; the packing is the spec's decision D17). The last two clauses are the model's own choices:
that a number of more than 6 bits, 0o100, gives no instruction (assumption 12), and what the decoder answers
on a lone cell (assumption 20). -/
def Obligations.TableWordsDecodeAsListed : Prop :=
  decodeTableWord 8 0o01 = some (.adv (.lit 1)) ∧ decodeTableWord 8 0o17 = some (.bxl 7) ∧
  decodeTableWord 8 0o26 = some (.bst (.reg .C)) ∧ decodeTableWord 8 0o30 = some (.jnz 0) ∧
  decodeTableWord 8 0o45 = some (.bxc 5) ∧ decodeTableWord 8 0o54 = some (.out (.reg .A)) ∧
  decodeTableWord 8 0o65 = some (.bdv (.reg .B)) ∧ decodeTableWord 8 0o77 = some (.cdv .seven) ∧
  decodeTableWord 8 0o100 = none ∧ decode [4] = .error .incompletePair

/-- R31: the opcode alone selects the instruction and the operand kind, and all eight are defined. -/
def Obligations.OpcodeSelectsInstructionAndOperandKind : Prop :=
  ∀ x : Cell,
    decodePair 0 x = .adv (comboOfCell x) ∧ decodePair 1 x = .bxl x ∧
    decodePair 2 x = .bst (comboOfCell x) ∧ decodePair 3 x = .jnz x ∧ decodePair 4 x = .bxc x ∧
    decodePair 5 x = .out (comboOfCell x) ∧ decodePair 6 x = .bdv (comboOfCell x) ∧
    decodePair 7 x = .cdv (comboOfCell x)

/-- Decoding the cells of any instruction, whatever follows them, gives the instruction and what
follows; every operand at every value, the illegal one too (R30, R36). -/
def Obligations.DecodeOfEncodeIsTheInstruction : Prop :=
  ∀ (i : Instr) (rest : List Cell), decode (encode i ++ rest) = .ok (i, rest)

/-- No two sequences of cells decode alike: what decodes is the encoding of what it decodes to (R30). -/
def Obligations.EncodeOfDecodeIsTheCells : Prop :=
  ∀ (cells : List Cell) (i : Instr) (rest : List Cell),
    decode cells = .ok (i, rest) → encode i ++ rest = cells

/-- Decoding fails on fewer than two cells and on nothing else: there is no reserved encoding (R32,
R37). What a decoder answers on too few cells is the model's own choice (assumption 20). -/
def Obligations.DecodeFailsOnlyWithoutAPair : Prop :=
  ∀ cells : List Cell, (∃ e, decode cells = .error e) ↔ cells.length < 2

/-- Of the 64 words, the combo instructions with operand 7 raise `InvalidOperand`, and no other word
does (R37, which the spec marks as derived from R34 and R35). That the record stands in a next state is
assumption 3 (decision D8). -/
def Obligations.IllegalWordsAreComboSeven : Prop :=
  ∀ (op x : Cell) (s t : State), s.fault = none → exec (decodePair op x) s = .next t →
    ((decodePair op x).wellFormed = false ↔ x = 7 ∧ (op = 0 ∨ op = 2 ∨ op = 5 ∨ op = 6 ∨ op = 7)) ∧
    ((∃ r, t.fault = some r ∧ r.kind = .invalidOperand) ↔ (decodePair op x).wellFormed = false)

/-! ### Operands and arithmetic -/

/-- The value of a combo operand, and the fault of operand 7 in the five combo instructions (R34, R65).
That the instruction answers a next state which holds the record is assumption 3 (decisions D8 and
D10). -/
def Obligations.ComboOperandResolves : Prop :=
  ∀ (s : State),
    (∀ x : Cell, x.toNat ≤ 3 → combo (comboOfCell x) s = some x.toNat) ∧
    combo (comboOfCell 4) s = some s.A ∧ combo (comboOfCell 5) s = some s.B ∧
    combo (comboOfCell 6) s = some s.C ∧
    ∀ op : Cell, op = 0 ∨ op = 2 ∨ op = 5 ∨ op = 6 ∨ op = 7 →
      ∃ t, exec (decodePair op 7) s = .next t ∧ t.fault = some ⟨.invalidOperand, s.ip, .combo7⟩

/-- The definitions of R50's table, on the unbounded registers of decision D1. -/
def Obligations.ArithmeticIsExact : Prop :=
  ∀ a b n i : Nat,
    shiftRight a n = a / 2 ^ n ∧ (xorNat a b).testBit i = (a.testBit i != b.testBit i) ∧
    mod8 a = a % 8 ∧ (tokenOf a).toNat = a % 8

/-- The corner cases of R50's shift: the amount is never reduced, so it can exceed any width; a shift
never gives a larger number, and a smaller one when it can. -/
def Obligations.ShiftAmountIsNotReduced : Prop :=
  ∀ a n : Nat,
    (a < 2 ^ n → shiftRight a n = 0) ∧ (bitLength a ≤ n → shiftRight a n = 0) ∧
    shiftRight a a = 0 ∧ shiftRight a n ≤ a ∧ (a ≠ 0 → 1 ≤ n → shiftRight a n < a)

/-! ### What each instruction does -/

/-- `adv` (R51): with a legal operand the whole next state and the corner cases of the value; with operand 7
what R51 says of the fault. That the fault is a
next state which holds the record is assumption 3 (decisions D7, D8 and D10). -/
def Obligations.AdvShiftsAIntoA : Prop :=
  ∀ (x : Combo) (s : State),
    encode (.adv x) = [0, cellOfCombo x] ∧
    (x ≠ .seven → ∃ v, combo x s = some v ∧
      exec (.adv x) s = .next { s with A := s.A / 2 ^ v, ip := s.ip + 2 } ∧
      (x = .lit 0 → s.A / 2 ^ v = s.A) ∧ (x = .reg .A → s.A / 2 ^ v = 0) ∧
      (bitLength s.A ≤ v → s.A / 2 ^ v = 0) ∧ s.A / 2 ^ v ≤ s.A ∧
      (s.A ≠ 0 → 1 ≤ v → s.A / 2 ^ v < s.A)) ∧
    (x = .seven → ∃ t, exec (.adv x) s = .next t ∧
      t.fault = some ⟨.invalidOperand, s.ip, .combo7⟩ ∧ t.A = s.A ∧ t.ip = s.ip)

/-- `bdv` (R52): with a legal operand the whole next state; with operand 7 the fault. That the fault is a
next state which holds the record is assumption 3 (decisions D7, D8 and D10). -/
def Obligations.BdvShiftsAIntoB : Prop :=
  ∀ (x : Combo) (s : State),
    encode (.bdv x) = [6, cellOfCombo x] ∧
    (x ≠ .seven → ∃ v, combo x s = some v ∧
      exec (.bdv x) s = .next { s with B := s.A / 2 ^ v, ip := s.ip + 2 } ∧
      (x = .lit 0 → s.A / 2 ^ v = s.A) ∧ (x = .reg .A → s.A / 2 ^ v = 0) ∧
      (x = .reg .B → v = s.B)) ∧
    (x = .seven → ∃ t, exec (.bdv x) s = .next t ∧
      t.fault = some ⟨.invalidOperand, s.ip, .combo7⟩ ∧ t.B = s.B ∧ t.ip = s.ip)

/-- `cdv` (R53): with a legal operand the whole next state; with operand 7 the fault. That the fault is a
next state which holds the record is assumption 3 (decisions D7, D8 and D10). -/
def Obligations.CdvShiftsAIntoC : Prop :=
  ∀ (x : Combo) (s : State),
    encode (.cdv x) = [7, cellOfCombo x] ∧
    (x ≠ .seven → ∃ v, combo x s = some v ∧
      exec (.cdv x) s = .next { s with C := s.A / 2 ^ v, ip := s.ip + 2 } ∧
      (x = .lit 0 → s.A / 2 ^ v = s.A) ∧ (x = .reg .A → s.A / 2 ^ v = 0) ∧
      (x = .reg .C → v = s.C)) ∧
    (x = .seven → ∃ t, exec (.cdv x) s = .next t ∧
      t.fault = some ⟨.invalidOperand, s.ip, .combo7⟩ ∧ t.C = s.C ∧ t.ip = s.ip)

/-- R54. The operand is the raw cell, no operand faults, the bits above the third are kept, 0 changes
nothing, and the same instruction again restores `B`. -/
def Obligations.BxlXorsBWithLiteral : Prop :=
  ∀ (x : Cell) (s : State),
    encode (.bxl x) = [1, x] ∧
    exec (.bxl x) s = .next { s with B := s.B ^^^ x.toNat, ip := s.ip + 2 } ∧
    (s.B ^^^ x.toNat) / 8 = s.B / 8 ∧ (x = 0 → s.B ^^^ x.toNat = s.B) ∧
    (s.B = 0 → s.B ^^^ x.toNat = x.toNat) ∧
    ∃ t u, exec (.bxl x) s = .next t ∧ exec (.bxl x) t = .next u ∧ u.B = s.B

/-- `bst` (R55): with a legal operand the whole next state; with operand 7 the fault. That the fault is a
next state which holds the record is assumption 3 (decisions D7, D8 and D10). -/
def Obligations.BstLoadsLowThreeBits : Prop :=
  ∀ (x : Combo) (s : State),
    encode (.bst x) = [2, cellOfCombo x] ∧
    (x ≠ .seven → ∃ v, combo x s = some v ∧
      exec (.bst x) s = .next { s with B := v % 8, ip := s.ip + 2 } ∧ v % 8 < 8) ∧
    (x = .seven → ∃ t, exec (.bst x) s = .next t ∧
      t.fault = some ⟨.invalidOperand, s.ip, .combo7⟩ ∧ t.B = s.B ∧ t.ip = s.ip)

/-- R56. All eight operand cells behave alike, 7 too, and none faults; the corner cases of the value. -/
def Obligations.BxcXorsBWithC : Prop :=
  ∀ (x : Cell) (s : State),
    encode (.bxc x) = [4, x] ∧
    exec (.bxc x) s = .next { s with B := s.B ^^^ s.C, ip := s.ip + 2 } ∧
    (s.C = 0 → s.B ^^^ s.C = s.B) ∧ (s.B = s.C → s.B ^^^ s.C = 0) ∧
    ∀ y : Cell, ∃ t u, exec (.bxc x) s = .next t ∧ exec (.bxc y) t = .next u ∧ u.B = s.B

/-- `out` (R59): with a legal operand the whole next state, whose token is the value's three low bits; with
operand 7 the fault. That the fault is a
next state which holds the record is assumption 3 (decisions D7, D8 and D10). -/
def Obligations.OutAppendsOneToken : Prop :=
  ∀ (x : Combo) (s : State),
    encode (.out x) = [5, cellOfCombo x] ∧
    (x ≠ .seven → ∃ (v : Nat) (tok : Token), combo x s = some v ∧ tok.toNat = v % 8 ∧
      exec (.out x) s = .next { s with out := s.out ++ [tok], ip := s.ip + 2 }) ∧
    (x = .seven → ∃ t, exec (.out x) s = .next t ∧
      t.fault = some ⟨.invalidOperand, s.ip, .combo7⟩ ∧ t.out = s.out ∧ t.ip = s.ip)

/-- `jnz` in its three cases (R57, R64). That a target at or beyond `L` faults is the spec's own decision D5
(assumption 8), that an odd one is taken its decision D6 (assumption 11), that the fault is a next state
which holds the record and is otherwise unchanged its decisions D7, D8 and D10 (assumption 3). -/
def Obligations.JnzBranchesOnA : Prop :=
  ∀ (x : Cell) (s : State),
    encode (.jnz x) = [3, x] ∧
    (s.A = 0 → exec (.jnz x) s = .next { s with ip := s.ip + 2 }) ∧
    (s.A ≠ 0 → x.toNat < s.prog.length → exec (.jnz x) s = .next { s with ip := x.toNat }) ∧
    (s.A ≠ 0 → s.prog.length ≤ x.toNat →
      exec (.jnz x) s = .next { s with fault := some ⟨.programError, s.ip, .jumpOutOfRange x⟩ })

/-! ### What each instruction leaves alone -/

/-- The frame of `adv`, `bdv`, `cdv` (R51 to R53, R46). A fault with operand 7 leaves the destination and
`ip` alone too (decision D7, assumption 3). -/
def Obligations.ShiftFamilyFrame : Prop :=
  ∀ (x : Combo) (s t : State),
    (exec (.adv x) s = .next t →
      t.B = s.B ∧ t.C = s.C ∧ t.out = s.out ∧ (x ≠ .seven → t.fault = s.fault) ∧
      (x = .seven → t.A = s.A ∧ t.ip = s.ip) ∧ ∀ a, readCell t.prog a = readCell s.prog a) ∧
    (exec (.bdv x) s = .next t →
      t.A = s.A ∧ t.C = s.C ∧ t.out = s.out ∧ (x ≠ .seven → t.fault = s.fault) ∧
      (x = .seven → t.B = s.B ∧ t.ip = s.ip) ∧ ∀ a, readCell t.prog a = readCell s.prog a) ∧
    (exec (.cdv x) s = .next t →
      t.A = s.A ∧ t.B = s.B ∧ t.out = s.out ∧ (x ≠ .seven → t.fault = s.fault) ∧
      (x = .seven → t.C = s.C ∧ t.ip = s.ip) ∧ ∀ a, readCell t.prog a = readCell s.prog a)

/-- The frame of `bxl`, `bst`, `bxc` (R54 to R56, R46; decision D7 and assumption 3 for the fault of `bst 7`). -/
def Obligations.BLogicFamilyFrame : Prop :=
  ∀ (i : Instr) (s t : State), exec i s = .next t →
    ((∃ x, i = .bxl x) ∨ (∃ x, i = .bst x) ∨ (∃ x, i = .bxc x)) →
      t.A = s.A ∧ t.C = s.C ∧ t.out = s.out ∧ (i ≠ .bst .seven → t.fault = s.fault) ∧
      (i = .bst .seven → t.B = s.B ∧ t.ip = s.ip) ∧ ∀ a, readCell t.prog a = readCell s.prog a

/-- The frame of `jnz` (R57; decisions D5 and D7, assumptions 8 and 3, for the fault). -/
def Obligations.JnzFrame : Prop :=
  ∀ (x : Cell) (s t : State), exec (.jnz x) s = .next t →
    t.A = s.A ∧ t.B = s.B ∧ t.C = s.C ∧ t.out = s.out ∧
    (s.A = 0 ∨ x.toNat < s.prog.length → t.fault = s.fault) ∧
    (s.A ≠ 0 → s.prog.length ≤ x.toNat → t.ip = s.ip) ∧
    ∀ a, readCell t.prog a = readCell s.prog a

/-- The frame of `out` (R59; decision D7 and assumption 3 for the fault of `out 7`). -/
def Obligations.OutFrame : Prop :=
  ∀ (x : Combo) (s t : State), exec (.out x) s = .next t →
    t.A = s.A ∧ t.B = s.B ∧ t.C = s.C ∧ (x ≠ .seven → t.fault = s.fault) ∧
    (x = .seven → t.out = s.out ∧ t.ip = s.ip) ∧ ∀ a, readCell t.prog a = readCell s.prog a

/-- The table of R12: an instruction changes only what the write column of its row names, and a register that
the row does not name as read has no influence: with another value in it the instruction does the same,
and the value stays there unless the instruction completes and writes that register. That an instruction
which faults answers a next state with its registers unchanged is assumption 3 (decision D7). -/
def Obligations.RegistersReadAndWritten : Prop :=
  ∀ (i : Instr) (s : State) (r : Reg) (v : Nat),
    (∀ t, exec i s = .next t → (r ∉ instrWrites i → t.reg r = s.reg r) ∧
      ((∀ x, i ≠ .out x) → t.out = s.out)) ∧
    (r ∉ instrReads i → ∃ t t', exec i s = .next t ∧ exec i (s.setReg r v) = .next t' ∧
      (r ∈ instrWrites i → i.wellFormed = true → t' = t) ∧
      (r ∉ instrWrites i ∨ i.wellFormed = false → t' = t.setReg r v))

/-- An instruction that completes without a fault goes on at `ip + 2`, but for `jnz` with `A` not zero
(R45), which goes on at its operand (R57); that an odd operand is taken as it is rests on the spec's
decision D6 (assumption 11). -/
def Obligations.DefaultAdvanceIsTwoCells : Prop :=
  ∀ (i : Instr) (s t : State), s.fault = none → exec i s = .next t → t.fault = none →
    ((∀ x, i = .jnz x → s.A = 0) → t.ip = s.ip + 2) ∧
    (∀ x, i = .jnz x → s.A ≠ 0 → t.ip = x.toNat)

/-! ### The step -/

/-- A step is the effect of the instruction that the two cells at `ip` decode to, at any `ip`, odd or
even; the step adds nothing around it (R41, R43, R44, R22). -/
def Obligations.StepRunsTheDecodedInstruction : Prop :=
  ∀ (s : State) (op x : Cell), s.fault = none → readCell s.prog s.ip = some op →
    readCell s.prog (s.ip + 1) = some x → step s = exec (decodePair op x) s

/-- The state that `withFetchWord` makes runs exactly the placed word's instruction, with the registers,
`ip` and output as they were, and no cell below `ip` changed. Both the loading operation and the numbering
of a table word are the model's own (assumptions 6 and 12). -/
def Obligations.PlacedWordIsTheOneThatRuns : Prop :=
  ∀ (s : State) (op x : Cell),
    decodeTableWord 8 (packWord op x) = some (decodePair op x) ∧
    step (s.withFetchWord 8 (packWord op x)) =
      exec (decodePair op x) (s.withFetchWord 8 (packWord op x)) ∧
    (s.withFetchWord 8 (packWord op x)).ip = s.ip ∧
    (∀ r, (s.withFetchWord 8 (packWord op x)).reg r = s.reg r) ∧
    (s.withFetchWord 8 (packWord op x)).out = s.out ∧
    (∀ a, a < s.ip → a < s.prog.length →
      readCell (s.withFetchWord 8 (packWord op x)).prog a = readCell s.prog a)

/-- A running state has a next state; a halted or faulted one has no step, which the model answers by
`Fault.halted` and `Fault.failed` (R41, R42, R69; the spec's decision D16, assumption 4). A running state
whose step faults is counted as having a next state, the one that holds the record, where R41 lists a fault
as a result of its own (decisions D7 and D8, assumption 3). -/
def Obligations.OnlyARunningStateSteps : Prop :=
  ∀ s : State,
    (s.running = true ↔ ∃ t, step s = .next t) ∧ (s.halted = true ↔ step s = .fault .halted) ∧
    ∀ r, s.fault = some r ↔ step s = .fault (.failed r)

/-- The three conditions of R16 exclude each other and one always holds (decision D8). -/
def Obligations.ExactlyOneStatusHolds : Prop :=
  ∀ s : State,
    (s.running = true ∧ s.halted = false ∧ s.faulted = false) ∨
    (s.running = false ∧ s.halted = true ∧ s.faulted = false) ∨
    (s.running = false ∧ s.halted = false ∧ s.faulted = true)

/-- A step with one cell left records `ProgramError` (R63); the lone cell's value plays no part. That the
step answers a next state which holds the record is assumption 3 (decisions D8 and D10). -/
def Obligations.IncompletePairFaults : Prop :=
  ∀ s : State, s.fault = none → s.ip < s.prog.length → s.prog.length ≤ s.ip + 1 →
    ∃ t, step s = .next t ∧ t.fault = some ⟨.programError, s.ip, .incompletePair⟩

/-- Which instructions raise `InvalidOperand`, when, and with which location, and which never do (R65).
That they answer a next state which holds the record is assumption 3 (decisions D8 and D10). -/
def Obligations.InvalidOperandIsComboSeven : Prop :=
  ∀ s : State,
    (∀ i, i = .adv .seven ∨ i = .bst .seven ∨ i = .out .seven ∨ i = .bdv .seven ∨ i = .cdv .seven →
      ∃ t, exec i s = .next t ∧ t.fault = some ⟨.invalidOperand, s.ip, .combo7⟩) ∧
    (∀ (i : Instr) (x : Cell) (t : State) (r : FaultRecord), s.fault = none →
      i = .bxl x ∨ i = .jnz x ∨ i = .bxc x → exec i s = .next t → t.fault = some r →
      r.kind ≠ .invalidOperand)

/-- A step that faults changes nothing but the fault record, which holds the unchanged `ip` (R66, R68;
the spec's decisions D7, D8 and D10, assumption 3). -/
def Obligations.FaultingStepChangesOnlyTheRecord : Prop :=
  ∀ (s t : State) (r : FaultRecord), step s = .next t → t.fault = some r →
    t = { s with fault := some r } ∧ r.loc = s.ip ∧ r.kind = kindOfCause r.cause

/-- A step faults with a record exactly when the record's condition holds before the step (R62 to R66;
decisions D5, D7, D8 and D10, assumptions 3 and 8). -/
def Obligations.FaultIsRecordedExactlyOnItsCondition : Prop :=
  ∀ (s t : State) (r : FaultRecord), step s = .next t → (t.fault = some r ↔ RecordMatches s r)

/-- At most one fault condition holds in a state (R67, which the spec marks as derived). -/
def Obligations.FaultConditionsExcludeEachOther : Prop :=
  ∀ (s : State) (r q : FaultRecord), RecordMatches s r → RecordMatches s q → r = q

/-- A faulted state is terminal: every later step of the run stops with the same record (R69; decisions
D8 and D16, assumptions 3 and 4). -/
def Obligations.FaultedRunStaysFaulted : Prop :=
  ∀ (s t : State) (r : FaultRecord) (k : Nat), step s = .next t → t.fault = some r →
    Host.Core.run core (k + 1) t = .fault (.failed r)

/-! ### Invariants -/

/-- Every step keeps the invariant: `0 <= ip <= L`, and a fault record matches its state (R13, R66, R68,
derived in the spec from decisions D5 and D7 among others; assumptions 3 and 8). -/
def Obligations.StepKeepsTheInvariant : Prop :=
  ∀ s t : State, Inv s → step s = .next t → Inv t

/-- Every start state has the invariant, and so has the reset state (R76; the reset state's registers
and program are the model's choice, assumption 5). -/
def Obligations.StartStatesHaveTheInvariant : Prop :=
  (∀ l : Launch, Inv (launch l)) ∧ Inv State.reset

/-- No step widens the register file (R11, derived in the spec). -/
def Obligations.RegisterFileNeverWidens : Prop :=
  ∀ s t : State, step s = .next t → regFileWidth t ≤ regFileWidth s

/-- A run whose registers fit in `w` bits at any point never overflows `w` bits afterwards, so a
realisation with `REG_WIDTH = w` is exact (R11, R80; decision D1). -/
def Obligations.FixedWidthRunNeverOverflows : Prop :=
  ∀ (w k : Nat) (s t : State), 3 ≤ w → FitsWidth w s → Host.Core.run core k s = .next t → FitsWidth w t

/-- R14: the output starts empty, only `out` writes it and appends exactly one token, nothing already
there ever changes, nothing reads it, and it is the result of a run that halts. -/
def Obligations.OutputSequenceOnlyGrows : Prop :=
  (∀ l : Launch, (launch l).out = []) ∧
  (∀ (i : Instr) (s t : State), exec i s = .next t → (∀ x, i ≠ .out x) → t.out = s.out) ∧
  (∀ (x : Combo) (s t : State), x ≠ .seven → exec (.out x) s = .next t →
    ∃ tok, t.out = s.out ++ [tok]) ∧
  (∀ (k : Nat) (s t : State), Host.Core.run core k s = .next t →
    ∃ later, t.out = s.out ++ later ∧ later.length ≤ k) ∧
  (∀ (i : Instr) (s t : State) (o : List Token), exec i s = .next t →
    ∃ t', exec i { s with out := o } = .next t' ∧ t = { t' with out := t.out }) ∧
  (∀ (n : Nat) (s t : State), runWithin n s = .halted t → outputOf (runWithin n s) = some t.out)

/-- No run changes a cell of the program or its length (R15, R28, R60). -/
def Obligations.RunNeverChangesTheProgram : Prop :=
  ∀ (k : Nat) (s t : State), Host.Core.run core k s = .next t →
    t.prog.length = s.prog.length ∧ ∀ a, readCell t.prog a = readCell s.prog a

/-- A run of a program that passes the host's checks of R80 and R88 never faults, from any even `ip` in
bounds, and stays on even cells. The checks read as `hostChecks` reads them, on the pairs at even cells,
are the model's form of R80's advice (assumption 20). -/
def Obligations.HostCheckedProgramNeverFaults : Prop :=
  ∀ (k : Nat) (s t : State), hostChecks s.prog = true → s.fault = none → s.ip % 2 = 0 →
    s.ip ≤ s.prog.length → Host.Core.run core k s = .next t →
    t.fault = none ∧ t.ip % 2 = 0 ∧ t.ip ≤ t.prog.length

/-! ### Runs -/

/-- A taken `jnz` to its own cell repeats its state for ever (R48, R57 c). -/
def Obligations.JumpToItselfHangs : Prop :=
  ∀ (s : State) (x : Cell), s.fault = none → s.A ≠ 0 → readCell s.prog s.ip = some 3 →
    readCell s.prog (s.ip + 1) = some x → x.toNat = s.ip →
    Hangs s ∧ ∀ k, Host.Core.run core k s = .next s

/-- The runner halts in the states that steps lead to, and fails with the records they hold, within its
budget and not otherwise (R47, R81; decision D15; the runner is the model's own, assumption 14; that a
faulting step leads to a state which holds the record is assumption 3, decisions D7 and D8). -/
def Obligations.RunnerAgreesWithTheSteps : Prop :=
  ∀ (n : Nat) (s : State),
    (∀ t, runWithin n s = .halted t ↔
      ∃ k, k ≤ n ∧ Host.Core.run core k s = .next t ∧ t.halted = true) ∧
    (∀ r, runWithin n s = .failed r ↔
      ∃ k t, k ≤ n ∧ Host.Core.run core k s = .next t ∧ t.fault = some r)

/-- A run has one outcome, whatever the budgets it is watched with: it does not halt in two states, fail
with two records, or halt and fail (R47, R49). -/
def Obligations.RunHasOneOutcome : Prop :=
  ∀ (n m : Nat) (s : State),
    (∀ t u, runWithin n s = .halted t → runWithin m s = .halted u → t = u) ∧
    (∀ r q, runWithin n s = .failed r → runWithin m s = .failed q → r = q) ∧
    (∀ t r, runWithin n s = .halted t → runWithin m s ≠ .failed r)

/-! ### Launch and ports -/

/-- The start state of any launch (R19, R76; decisions D14 and D8), whatever ran before it; the
reset state is that of the launch which assumption 5 chooses. -/
def Obligations.LaunchStartsAFreshRun : Prop :=
  (∀ (P : Memory) (a b c : Nat),
    launch ⟨P, a, b, c⟩ = { ip := 0, A := a, B := b, C := c, out := [], fault := none, prog := P }) ∧
  State.reset = launch ⟨[], 0, 0, 0⟩

/-- A launch from numbers is refused exactly when one of them is above 7 (R40; decision D4, assumption 13);
otherwise the program holds those numbers. -/
def Obligations.LaunchRefusesNumbersAboveSeven : Prop :=
  ∀ (cells : List Nat) (a b c : Nat),
    ((∃ e, launchNumbers cells a b c = .error e) ↔ ∃ v, v ∈ cells ∧ 7 < v) ∧
    ∀ s, launchNumbers cells a b c = .ok s → s.prog.map BitVec.toNat = cells ∧ s.A = a ∧ s.B = b ∧ s.C = c

/-- A fixed-width realisation of at least 128 bits takes a launch exactly when the cells are cells and
every register value fits (R80, R10; decisions D1 and D4, assumptions 7 and 13). -/
def Obligations.FixedWidthLaunchChecksItsValues : Prop :=
  ∀ (w : Nat) (cells : List Nat) (a b c : Nat), 128 ≤ w →
    ((∃ s, launchWith (some w) cells a b c = .ok s) ↔
      (∀ v, v ∈ cells → v ≤ 7) ∧ a < 2 ^ w ∧ b < 2 ^ w ∧ c < 2 ^ w) ∧
    ∀ s, launchWith (some w) cells a b c = .ok s → FitsWidth w s

/-- `MemRead` gives the cells in order, all of them or none (R7, R20, R23). -/
def Obligations.MemReadIsWholeOrNothing : Prop :=
  ∀ (P : Memory) (addr n : Nat) (l : List Cell),
    memRead P addr n = some l ↔
      addr + n ≤ P.length ∧ l.length = n ∧ ∀ i, i < n → l[i]? = readCell P (addr + i)

/-- The token port carries the output: without `start`, an edge appends to the output what the port
shows, and the port is valid exactly then (R82, R89; decisions D12 and D13). That `out_token` is none when
it is not valid is the model's own choice (assumption 9); of a cycle with `start` the statement says
nothing (assumption 21). -/
def Obligations.TokenPortCarriesTheOutput : Prop :=
  ∀ (inp : PortsIn) (s : State), inp.start = false →
    (clockEdge inp s).out = s.out ++ (portsOf s).outToken.toList ∧
    (portsOf s).outValid = (portsOf s).outToken.isSome

/-- The cause of a fault can be read off the ports and the program, as R82 says (derived in the spec;
decisions D9 and D12, assumption 15; the ports' form is assumption 9). -/
def Obligations.FaultCauseIsReadOffThePorts : Prop :=
  ∀ (s : State) (r : FaultRecord), Inv s → s.fault = some r →
    causeFromPorts s.prog (portsOf s) = some r.cause

/-- `start` begins a fresh run whatever the state; without it a halted or faulted state holds (R82, R84,
R89; decisions D12 and D13). That the program is an input read with `start` and taken into the state is the
model's own choice (assumption 10): in R82 `start` samples the registers and the store stands outside. -/
def Obligations.OnlyStartLeavesAFinishedRun : Prop :=
  ∀ (inp : PortsIn) (s : State),
    (inp.start = true → clockEdge inp s = launch ⟨inp.prog, inp.a0, inp.b0, inp.c0⟩) ∧
    (inp.start = false → s.halted = true ∨ s.faulted = true → clockEdge inp s = s)
end

