-- ==== Sys2Proof/Laws/Arith.lean ====
section
/-! SUPPORT. What the arithmetic operations compute (spec/40_step_cycle.md R50). -/

namespace Sys2Proof.Machine

theorem shiftRight_zero (a : Nat) : shiftRight a 0 = a := rfl

theorem shiftRight_le (a n : Nat) : shiftRight a n ≤ a := Nat.shiftRight_le a n

theorem mod8_lt (a : Nat) : mod8 a < 8 := Nat.mod_lt _ (by decide)

theorem tokenOf_toNat (a : Nat) : (tokenOf a).toNat = a % 8 := by
  simp [tokenOf, mod8]

/-- `bitLength v` is the least width that holds `v`. -/
theorem bitLength_le_iff (v w : Nat) : bitLength v ≤ w ↔ v < 2 ^ w := by
  unfold bitLength
  split
  · simp [*]
  · next h => rw [Nat.succ_le_iff, Nat.log2_lt h]

theorem bitLength_mono {a b : Nat} (h : a ≤ b) : bitLength a ≤ bitLength b :=
  (bitLength_le_iff _ _).2 (h.trans_lt ((bitLength_le_iff _ _).1 le_rfl))

theorem xorNat_lt_two_pow {a b w : Nat} (ha : a < 2 ^ w) (hb : b < 2 ^ w) : xorNat a b < 2 ^ w :=
  Nat.xor_lt_two_pow ha hb

end Sys2Proof.Machine
end

