-- ==== Sys2Proof/Laws/Decode.lean ====
section
/-! SUPPORT. Small facts about the encoding tables (spec/30_encoding.md). -/

namespace Sys2Proof

/-- The eight operand cells and the eight combo operands correspond. -/
@[simp] theorem comboOfCell_cellOfCombo (x : Combo) : comboOfCell (cellOfCombo x) = x := by
  cases x with
  | lit k => revert k; decide
  | reg r => cases r <;> rfl
  | seven => rfl

@[simp] theorem cellOfCombo_comboOfCell (x : Cell) : cellOfCombo (comboOfCell x) = x := by
  revert x; decide

/-- Only the operand cell 7 is the illegal combo operand (R37). -/
theorem comboOfCell_eq_seven_iff (x : Cell) : comboOfCell x = .seven ↔ x = 7 := by
  revert x; decide

theorem combo_wellFormed_iff (x : Combo) : x.wellFormed = true ↔ x ≠ .seven := by
  cases x <;> simp [Combo.wellFormed]

/-- A packed word gives back its two cells. -/
theorem unpackWord_packWord (op x : Cell) : unpackWord (packWord op x) = some (op, x) := by
  revert op x; decide

theorem packWord_lt (op x : Cell) : packWord op x < 64 := by
  revert op x; decide

theorem decodePair_adv (x : Cell) : decodePair 0 x = .adv (comboOfCell x) := rfl
theorem decodePair_bxl (x : Cell) : decodePair 1 x = .bxl x := rfl
theorem decodePair_bst (x : Cell) : decodePair 2 x = .bst (comboOfCell x) := rfl
theorem decodePair_jnz (x : Cell) : decodePair 3 x = .jnz x := rfl
theorem decodePair_bxc (x : Cell) : decodePair 4 x = .bxc x := rfl
theorem decodePair_out (x : Cell) : decodePair 5 x = .out (comboOfCell x) := rfl
theorem decodePair_bdv (x : Cell) : decodePair 6 x = .bdv (comboOfCell x) := rfl
theorem decodePair_cdv (x : Cell) : decodePair 7 x = .cdv (comboOfCell x) := rfl

end Sys2Proof
end

