-- ==== Sys2Proof/Laws/Memory.lean ====
section
/-! SUPPORT. The program store: what a read gives, that a cell placed in it is read back, and that the
store's form is kept. -/

namespace Sys2Proof.Machine

/-- A cell exists at the addresses below `L` and nowhere else (R20). -/
theorem readCell_isSome_iff (P : Memory) (a : Nat) : (readCell P a).isSome ↔ a < P.length := by
  simp [readCell]

/-- Two stores that read alike everywhere are the same data: the list is a canonical form. -/
theorem memory_ext {P Q : Memory} (h : ∀ a, readCell P a = readCell Q a) : P = Q :=
  List.ext_getElem? h

/-- Every store has the form: a cell cannot hold a number above 7 (R40 a). -/
theorem memory_wf (P : Memory) : P.wf := fun c _ => c.isLt

theorem placeCell_wf {P : Memory} (_h : P.wf) (a : Nat) (c : Cell) : (placeCell P a c).wf :=
  memory_wf _

theorem reset_memory_wf : State.reset.prog.wf := memory_wf _

theorem placeCell_length (P : Memory) (a : Nat) (c : Cell) :
    (placeCell P a c).length = max P.length (a + 1) := by
  unfold placeCell
  split <;> simp <;> omega

/-- A cell reads back as the one placed. -/
theorem readCell_placeCell_same (P : Memory) (a : Nat) (c : Cell) :
    readCell (placeCell P a c) a = some c := by
  unfold readCell placeCell
  split
  · next h => simp [h]
  · next h =>
    have hl : (P ++ List.replicate (a - P.length) 0).length = a := by simp; omega
    rw [List.getElem?_append_right hl.le, hl, Nat.sub_self]
    rfl

/-- Placing a cell leaves every other existing cell alone. -/
theorem readCell_placeCell_of_ne (P : Memory) {a b : Nat} (c : Cell) (h : b ≠ a)
    (hb : b < P.length) : readCell (placeCell P a c) b = readCell P b := by
  unfold readCell placeCell
  split
  · simp [h.symm]
  · rw [List.append_assoc, List.getElem?_append_left hb]

/-- `MemRead(addr, 2)` reads the two cells together. -/
theorem memRead_two {P : Memory} {a : Nat} (h : a + 2 ≤ P.length) :
    memRead P a 2 = some [P[a], P[a + 1]] := by
  unfold memRead
  rw [if_pos h, List.drop_eq_getElem_cons (by omega), List.drop_eq_getElem_cons (by omega)]
  rfl

/-- The fetch in terms of single cell reads. -/
theorem fetch_eq_some_iff (s : State) (op x : Cell) :
    fetch s = some (op, x) ↔
      readCell s.prog s.ip = some op ∧ readCell s.prog (s.ip + 1) = some x := by
  unfold readCell
  by_cases h : s.ip + 2 ≤ s.prog.length
  · simp [fetch, memRead_two h, List.getElem?_eq_getElem (show s.ip < s.prog.length by omega),
      List.getElem?_eq_getElem (show s.ip + 1 < s.prog.length by omega)]
  · have h1 : s.prog[s.ip + 1]? = none := List.getElem?_eq_none (by omega)
    simp [fetch, memRead, h, h1]

/-- The fetch fails when the pair is not whole, and only then (R43). -/
theorem fetch_eq_none_iff (s : State) : fetch s = none ↔ s.prog.length < s.ip + 2 := by
  by_cases h : s.ip + 2 ≤ s.prog.length
  · simp [fetch, memRead_two h, h]
  · simp [fetch, memRead, h]; omega

end Sys2Proof.Machine
end

