-- ==== Sys2Proof/Laws/PerInstr.lean ====
section
/-! SUPPORT. Families of facts stated once for each constructor of `Instr`. -/

namespace Sys2Proof.Laws

/-- The shape of an instruction's encoding: two cells, the operand cell agreeing with the operand, and an
illegal operand only in a combo instruction's cell 7 (R30, R37). -/
def EncodeShape.Statement (i : Instr) : Prop :=
  (encode i).length = 2 ∧ (i.wellFormed = false → operandCell i = 7)

theorem EncodeShape.adv (x : Combo) : EncodeShape.Statement (.adv x) :=
  ⟨rfl, by cases x <;> simp [Instr.wellFormed, Combo.wellFormed, operandCell, cellOfCombo]⟩

theorem EncodeShape.bxl (x : Cell) : EncodeShape.Statement (.bxl x) :=
  ⟨rfl, by simp [Instr.wellFormed]⟩

theorem EncodeShape.bst (x : Combo) : EncodeShape.Statement (.bst x) :=
  ⟨rfl, by cases x <;> simp [Instr.wellFormed, Combo.wellFormed, operandCell, cellOfCombo]⟩

theorem EncodeShape.jnz (x : Cell) : EncodeShape.Statement (.jnz x) :=
  ⟨rfl, by simp [Instr.wellFormed]⟩

theorem EncodeShape.bxc (x : Cell) : EncodeShape.Statement (.bxc x) :=
  ⟨rfl, by simp [Instr.wellFormed]⟩

theorem EncodeShape.out (x : Combo) : EncodeShape.Statement (.out x) :=
  ⟨rfl, by cases x <;> simp [Instr.wellFormed, Combo.wellFormed, operandCell, cellOfCombo]⟩

theorem EncodeShape.bdv (x : Combo) : EncodeShape.Statement (.bdv x) :=
  ⟨rfl, by cases x <;> simp [Instr.wellFormed, Combo.wellFormed, operandCell, cellOfCombo]⟩

theorem EncodeShape.cdv (x : Combo) : EncodeShape.Statement (.cdv x) :=
  ⟨rfl, by cases x <;> simp [Instr.wellFormed, Combo.wellFormed, operandCell, cellOfCombo]⟩

end Sys2Proof.Laws
end

