-- ==== Sys2Proof/Laws/State.lean ====
section
/-! SUPPORT. One lemma per field per update of the state, each true by `rfl`, so that no later proof
unfolds a record update. -/

namespace Sys2Proof.Machine

variable (s : State) (r : Reg) (v t : Nat) (tok : Token) (c : FaultCause) (l : Launch)

/-! ### Register reads -/

@[simp] theorem State.reg_A : s.reg .A = s.A := rfl
@[simp] theorem State.reg_B : s.reg .B = s.B := rfl
@[simp] theorem State.reg_C : s.reg .C = s.C := rfl

/-! ### Register writes -/

@[simp] theorem State.setReg_A_A : (s.setReg .A v).A = v := rfl
@[simp] theorem State.setReg_A_B : (s.setReg .A v).B = s.B := rfl
@[simp] theorem State.setReg_A_C : (s.setReg .A v).C = s.C := rfl
@[simp] theorem State.setReg_B_A : (s.setReg .B v).A = s.A := rfl
@[simp] theorem State.setReg_B_B : (s.setReg .B v).B = v := rfl
@[simp] theorem State.setReg_B_C : (s.setReg .B v).C = s.C := rfl
@[simp] theorem State.setReg_C_A : (s.setReg .C v).A = s.A := rfl
@[simp] theorem State.setReg_C_B : (s.setReg .C v).B = s.B := rfl
@[simp] theorem State.setReg_C_C : (s.setReg .C v).C = v := rfl
@[simp] theorem State.setReg_ip : (s.setReg r v).ip = s.ip := by cases r <;> rfl
@[simp] theorem State.setReg_out : (s.setReg r v).out = s.out := by cases r <;> rfl
@[simp] theorem State.setReg_fault : (s.setReg r v).fault = s.fault := by cases r <;> rfl
@[simp] theorem State.setReg_prog : (s.setReg r v).prog = s.prog := by cases r <;> rfl

/-- A register read after a write of the same register gives the value written. -/
@[simp] theorem State.reg_setReg_same : (s.setReg r v).reg r = v := by cases r <;> rfl

/-- A register write leaves every other register alone. -/
theorem State.reg_setReg_of_ne {r q : Reg} (h : q ≠ r) : (s.setReg r v).reg q = s.reg q := by
  cases r <;> cases q <;> first | rfl | exact absurd rfl h

/-! ### The default advance and the redirect -/

@[simp] theorem State.advance_ip : s.advance.ip = s.ip + 2 := rfl
@[simp] theorem State.advance_A : s.advance.A = s.A := rfl
@[simp] theorem State.advance_B : s.advance.B = s.B := rfl
@[simp] theorem State.advance_C : s.advance.C = s.C := rfl
@[simp] theorem State.advance_out : s.advance.out = s.out := rfl
@[simp] theorem State.advance_fault : s.advance.fault = s.fault := rfl
@[simp] theorem State.advance_prog : s.advance.prog = s.prog := rfl

@[simp] theorem State.jumpTo_ip : (s.jumpTo t).ip = t := rfl
@[simp] theorem State.jumpTo_A : (s.jumpTo t).A = s.A := rfl
@[simp] theorem State.jumpTo_B : (s.jumpTo t).B = s.B := rfl
@[simp] theorem State.jumpTo_C : (s.jumpTo t).C = s.C := rfl
@[simp] theorem State.jumpTo_out : (s.jumpTo t).out = s.out := rfl
@[simp] theorem State.jumpTo_fault : (s.jumpTo t).fault = s.fault := rfl
@[simp] theorem State.jumpTo_prog : (s.jumpTo t).prog = s.prog := rfl

/-! ### The output sequence -/

@[simp] theorem State.appendToken_out : (s.appendToken tok).out = s.out ++ [tok] := rfl
@[simp] theorem State.appendToken_ip : (s.appendToken tok).ip = s.ip := rfl
@[simp] theorem State.appendToken_A : (s.appendToken tok).A = s.A := rfl
@[simp] theorem State.appendToken_B : (s.appendToken tok).B = s.B := rfl
@[simp] theorem State.appendToken_C : (s.appendToken tok).C = s.C := rfl
@[simp] theorem State.appendToken_fault : (s.appendToken tok).fault = s.fault := rfl
@[simp] theorem State.appendToken_prog : (s.appendToken tok).prog = s.prog := rfl

/-! ### Fault entry -/

@[simp] theorem State.takeFault_fault :
    (s.takeFault c).fault = some ⟨kindOfCause c, s.ip, c⟩ := rfl
@[simp] theorem State.takeFault_ip : (s.takeFault c).ip = s.ip := rfl
@[simp] theorem State.takeFault_A : (s.takeFault c).A = s.A := rfl
@[simp] theorem State.takeFault_B : (s.takeFault c).B = s.B := rfl
@[simp] theorem State.takeFault_C : (s.takeFault c).C = s.C := rfl
@[simp] theorem State.takeFault_out : (s.takeFault c).out = s.out := rfl
@[simp] theorem State.takeFault_prog : (s.takeFault c).prog = s.prog := rfl

/-! ### The program's length and the derived status -/

theorem State.progLen_eq : s.progLen = s.prog.length := rfl

theorem State.aIsZero_iff : s.aIsZero = true ↔ s.A = 0 := by simp [State.aIsZero]

theorem State.running_iff : s.running = true ↔ s.fault = none ∧ s.ip < s.progLen := by
  simp [State.running]

theorem State.halted_iff : s.halted = true ↔ s.fault = none ∧ s.progLen ≤ s.ip := by
  simp [State.halted]

theorem State.faulted_iff : s.faulted = true ↔ ∃ r, s.fault = some r := by
  simp [State.faulted, Option.isSome_iff_exists]

/-! ### The start state -/

@[simp] theorem launch_ip : (launch l).ip = 0 := rfl
@[simp] theorem launch_A : (launch l).A = l.A0 := rfl
@[simp] theorem launch_B : (launch l).B = l.B0 := rfl
@[simp] theorem launch_C : (launch l).C = l.C0 := rfl
@[simp] theorem launch_out : (launch l).out = [] := rfl
@[simp] theorem launch_fault : (launch l).fault = none := rfl
@[simp] theorem launch_prog : (launch l).prog = l.prog := rfl

/-- The reset state is the start state of the launch that assumption 5 names. -/
theorem reset_eq_launch : State.reset = launch ⟨[], 0, 0, 0⟩ := rfl

end Sys2Proof.Machine
end

