-- ==== Sys2Proof/Laws/Step.lean ====
section
/-! SUPPORT. What the shared operations, an instruction and a step can do, said once: later proofs cite
these and do not unfold the definitions. -/

namespace Sys2Proof.Machine

/-! ### Operands -/

@[simp] theorem combo_lit (k : BitVec 2) (s : State) : combo (.lit k) s = some k.toNat := rfl
@[simp] theorem combo_reg (r : Reg) (s : State) : combo (.reg r) s = some (s.reg r) := rfl
@[simp] theorem combo_seven (s : State) : combo .seven s = none := rfl

theorem combo_eq_none_iff (x : Combo) (s : State) : combo x s = none ↔ x = .seven := by
  cases x <;> simp

theorem withCombo_some {x : Combo} {s : State} {v : Nat} (h : combo x s = some v)
    (k : Nat → State) : withCombo x s k = .next (k v) := by
  simp [withCombo, h]

theorem withCombo_seven (s : State) (k : Nat → State) :
    withCombo .seven s k = .next (s.takeFault .combo7) := rfl

/-- Everything resolving a combo operand can do. -/
theorem withCombo_cases {x : Combo} {s t : State} {k : Nat → State}
    (h : withCombo x s k = .next t) :
    (∃ v, combo x s = some v ∧ t = k v) ∨ (x = .seven ∧ t = s.takeFault .combo7) := by
  cases hx : combo x s with
  | some v => exact .inl ⟨v, rfl, by simpa [withCombo, hx] using h.symm⟩
  | none =>
    exact .inr ⟨(combo_eq_none_iff x s).1 hx, by simpa [withCombo, hx] using h.symm⟩

/-! ### jnz -/

/-- Everything `jnz` can do (R57). -/
theorem execJnz_cases {x : Cell} {s t : State} (h : execJnz x s = .next t) :
    (s.A = 0 ∧ t = s.advance) ∨
    (s.A ≠ 0 ∧ s.progLen ≤ x.toNat ∧ t = s.takeFault (.jumpOutOfRange x)) ∨
    (s.A ≠ 0 ∧ x.toNat < s.progLen ∧ t = s.jumpTo x.toNat) := by
  unfold execJnz literal at h
  split at h
  · next ha => exact .inl ⟨s.aIsZero_iff.1 ha, by simpa using h.symm⟩
  · next ha =>
    have ha' : s.A ≠ 0 := fun e => ha (s.aIsZero_iff.2 e)
    split at h
    · next hx => exact .inr (.inl ⟨ha', hx, by simpa using h.symm⟩)
    · next hx => exact .inr (.inr ⟨ha', by omega, by simpa using h.symm⟩)

/-! ### Any instruction -/

/-- The five instructions that take a combo operand (R35). -/
def comboOperand : Instr → Option Combo
  | .adv x => some x
  | .bxl _ => none
  | .bst x => some x
  | .jnz _ => none
  | .bxc _ => none
  | .out x => some x
  | .bdv x => some x
  | .cdv x => some x

/-- The writes of an instruction other than `jnz` that completes, for the value `v` of its operand. -/
def effect (i : Instr) (v : Nat) (s : State) : State :=
  match i with
  | .adv _ => s.setReg .A (shiftRight s.A v)
  | .bxl x => s.setReg .B (xorNat s.B x.toNat)
  | .bst _ => s.setReg .B (mod8 v)
  | .jnz _ => s
  | .bxc _ => s.setReg .B (xorNat s.B s.C)
  | .out _ => s.appendToken (tokenOf v)
  | .bdv _ => s.setReg .B (shiftRight s.A v)
  | .cdv _ => s.setReg .C (shiftRight s.A v)

/-- Everything an instruction can do: it completes with the default advance, it jumps, or it takes one
of the two faults an instruction can take. -/
theorem exec_cases {i : Instr} {s t : State} (h : exec i s = .next t) :
    (∃ v, (∀ x, comboOperand i = some x → combo x s = some v) ∧
      (∀ x, i = .jnz x → s.A = 0) ∧ t = (effect i v s).advance) ∨
    (∃ x, i = .jnz x ∧ s.A ≠ 0 ∧ x.toNat < s.progLen ∧ t = s.jumpTo x.toNat) ∨
    (∃ x, i = .jnz x ∧ s.A ≠ 0 ∧ s.progLen ≤ x.toNat ∧ t = s.takeFault (.jumpOutOfRange x)) ∨
    (comboOperand i = some .seven ∧ t = s.takeFault .combo7) := by
  cases i with
  | adv x =>
    obtain ⟨v, hv, rfl⟩ | ⟨rfl, rfl⟩ := withCombo_cases h
    · exact .inl ⟨v, by simp [comboOperand, hv], by simp, rfl⟩
    · exact .inr (.inr (.inr ⟨rfl, rfl⟩))
  | bst x =>
    obtain ⟨v, hv, rfl⟩ | ⟨rfl, rfl⟩ := withCombo_cases h
    · exact .inl ⟨v, by simp [comboOperand, hv], by simp, rfl⟩
    · exact .inr (.inr (.inr ⟨rfl, rfl⟩))
  | out x =>
    obtain ⟨v, hv, rfl⟩ | ⟨rfl, rfl⟩ := withCombo_cases h
    · exact .inl ⟨v, by simp [comboOperand, hv], by simp, rfl⟩
    · exact .inr (.inr (.inr ⟨rfl, rfl⟩))
  | bdv x =>
    obtain ⟨v, hv, rfl⟩ | ⟨rfl, rfl⟩ := withCombo_cases h
    · exact .inl ⟨v, by simp [comboOperand, hv], by simp, rfl⟩
    · exact .inr (.inr (.inr ⟨rfl, rfl⟩))
  | cdv x =>
    obtain ⟨v, hv, rfl⟩ | ⟨rfl, rfl⟩ := withCombo_cases h
    · exact .inl ⟨v, by simp [comboOperand, hv], by simp, rfl⟩
    · exact .inr (.inr (.inr ⟨rfl, rfl⟩))
  | bxl _ => exact .inl ⟨0, by simp [comboOperand], by simp, (Host.Outcome.next.inj h).symm⟩
  | bxc _ => exact .inl ⟨0, by simp [comboOperand], by simp, (Host.Outcome.next.inj h).symm⟩
  | jnz x =>
    obtain ⟨ha, rfl⟩ | ⟨ha, hx, rfl⟩ | ⟨ha, hx, rfl⟩ := execJnz_cases h
    · exact .inl ⟨0, by simp [comboOperand], by simpa using ha, rfl⟩
    · exact .inr (.inr (.inl ⟨x, rfl, ha, hx, rfl⟩))
    · exact .inr (.inl ⟨x, rfl, ha, hx, rfl⟩)

/-! ### A step -/

/-- Everything a step with a next state can do: the fault of an incomplete pair, or the instruction
fetched at `ip`. -/
theorem step_cases {s t : State} (h : step s = .next t) :
    s.fault = none ∧ s.ip < s.progLen ∧
      ((s.ip + 1 = s.progLen ∧ t = s.takeFault .incompletePair) ∨
        ∃ op x, readCell s.prog s.ip = some op ∧ readCell s.prog (s.ip + 1) = some x ∧
          exec (decodePair op x) s = .next t) := by
  unfold step cycle at h
  split at h
  · cases h
  · next hf =>
    split at h
    · cases h
    · next hip =>
      have hlt : s.ip < s.progLen := by omega
      refine ⟨hf, hlt, ?_⟩
      split at h
      · next hn =>
        rw [fetch_eq_none_iff] at hn
        rw [State.progLen_eq] at hlt
        exact .inl ⟨by rw [State.progLen_eq]; omega, by simpa using h.symm⟩
      · next op x hs =>
        obtain ⟨h1, h2⟩ := (fetch_eq_some_iff s op x).1 hs
        exact .inr ⟨op, x, h1, h2, h⟩

end Sys2Proof.Machine
end

