-- ==== Sys2Proof/Laws/Run.lean ====
section
/-! SUPPORT. Runs of the machine through the host's interface, and the one induction over them. -/

namespace Sys2Proof.Machine

theorem core_run_zero (s : State) : Host.Core.run Sys2Proof.core 0 s = .next s := rfl

/-- One more step in front of a run, for any machine. -/
theorem run_succ_eq (M : Host.Core) (k : Nat) (s : M.State) :
    M.run (k + 1) s =
      match M.step s with
      | .next u => M.run k u
      | .fault r => .fault r
      | .refused r => .refused r := rfl

theorem core_run_succ_of_next {k : Nat} {s u : State} (h : step s = .next u) :
    Host.Core.run Sys2Proof.core (k + 1) s = Host.Core.run Sys2Proof.core k u := by
  have hs : Sys2Proof.core.step s = .next u := h
  exact (run_succ_eq Sys2Proof.core k s).trans (by rw [hs])

theorem core_run_succ_of_fault {k : Nat} {s : State} {r : Fault} (h : step s = .fault r) :
    Host.Core.run Sys2Proof.core (k + 1) s = .fault r := by
  have hs : Sys2Proof.core.step s = .fault r := h
  exact (run_succ_eq Sys2Proof.core k s).trans (by rw [hs])

/-- A run that reaches a state makes its first step and then the rest. -/
theorem core_run_succ_cases {k : Nat} {s t : State}
    (h : Host.Core.run Sys2Proof.core (k + 1) s = .next t) :
    ∃ u, step s = .next u ∧ Host.Core.run Sys2Proof.core k u = .next t := by
  cases hs : step s with
  | next u => exact ⟨u, rfl, (core_run_succ_of_next hs).symm.trans h⟩
  | fault r => cases (core_run_succ_of_fault hs).symm.trans h
  | refused r =>
    have hs' : Sys2Proof.core.step s = .refused r := hs
    have := (run_succ_eq Sys2Proof.core k s).symm.trans h
    rw [hs'] at this
    cases this

/-- A property that every step keeps is kept by every run. -/
theorem core_run_keeps {Q : State → Prop} (hstep : ∀ s t, Q s → step s = .next t → Q t) :
    ∀ (k : Nat) (s t : State), Q s → Host.Core.run Sys2Proof.core k s = .next t → Q t
  | 0, _, _, hs, h => Host.Outcome.next.inj h ▸ hs
  | k + 1, s, t, hs, h =>
    have ⟨u, hu, hrest⟩ := core_run_succ_cases h
    core_run_keeps hstep k u t (hstep s u hs hu) hrest

end Sys2Proof.Machine
end

