-- ==== Sys2Proof/Tests/Slice0.lean ====
section
/-! SUPPORT. The model's own tests: decoding of words written out from spec/30_encoding.md, one or two
vectors of spec/95_test_vectors.md for each instruction, a smoke test of each check, and for every
statement with hypotheses a witness that meets them. -/

namespace Sys2Proof.Tests

open Sys2Proof Sys2Proof.Machine

/-- A running state of a small program. -/
def st (prog : List Cell) (ip A B C : Nat) (out : List Token := []) : State :=
  { ip := ip, A := A, B := B, C := C, out := out, fault := none, prog := prog }

/-- The next state, where there is one. -/
def nextOf (o : Host.Outcome State Fault Refusal) : Option State :=
  match o with
  | .next t => some t
  | .fault _ => none
  | .refused _ => none

/-- The reason of a stop, where there is one. -/
def faultOf (o : Host.Outcome State Fault Refusal) : Option Fault :=
  match o with
  | .next _ => none
  | .fault r => some r
  | .refused _ => none

/-- `2^130 + 5`, the wide value of the spec's vectors. -/
def big : Nat := 1361129467683753853853498429727072845829

/-! ### Decoding: words written out bit by bit, opcode bits then operand bits (R30, R36) -/

theorem test_decode_adv : decodeTableWord 8 0b000101 = some (.adv (.reg .B)) := by decide
theorem test_decode_bxl : decodeTableWord 8 0b001110 = some (.bxl 6) := by decide
theorem test_decode_bst : decodeTableWord 8 0b010011 = some (.bst (.lit 3)) := by decide
theorem test_decode_jnz : decodeTableWord 8 0b011111 = some (.jnz 7) := by decide
theorem test_decode_bxc : decodeTableWord 8 0b100111 = some (.bxc 7) := by decide
theorem test_decode_out : decodeTableWord 8 0b101100 = some (.out (.reg .A)) := by decide
theorem test_decode_bdv : decodeTableWord 8 0b110010 = some (.bdv (.lit 2)) := by decide
theorem test_decode_cdv : decodeTableWord 8 0b111110 = some (.cdv (.reg .C)) := by decide
theorem test_decode_cdv_seven : decodeTableWord 6 0b111111 = some (.cdv .seven) := by decide

/-- R30: the opcode is the cell at the lower address. -/
theorem test_decode_cell_order :
    decode [5, 1, 3] = .ok (.out (.lit 1), [3]) := by decide

theorem test_decode_no_cell : decode [] = .error .noCell := by decide
theorem test_decode_lone_cell : decode [4] = .error .incompletePair := by decide
theorem test_cell_above_seven : cellsOfNats [0, 8] = .error (.cellAbove7 8) := by decide
theorem test_encode_out : encode (.out (.reg .A)) = [0b101, 0b100] := by decide

/-! ### WellFormed smoke: an ill-formed term for each check -/

theorem test_adv_seven_is_illformed : (Instr.adv .seven).wellFormed = false := by decide
theorem test_bst_seven_is_illformed : (Instr.bst .seven).wellFormed = false := by decide
theorem test_out_seven_is_illformed : (Instr.out .seven).wellFormed = false := by decide
theorem test_bdv_seven_is_illformed : (Instr.bdv .seven).wellFormed = false := by decide
theorem test_cdv_seven_is_illformed : (Instr.cdv .seven).wellFormed = false := by decide
theorem test_bxc_seven_is_wellformed : (Instr.bxc 7).wellFormed = true := by decide
theorem test_odd_program_is_illformed : programWellFormed [5, 1, 5] = false := by decide
theorem test_host_checks_refuse_odd_target : hostChecks [3, 1, 4, 0] = false := by decide
theorem test_host_checks_refuse_far_target : hostChecks [3, 2] = false := by decide
theorem test_host_checks_refuse_combo_seven : hostChecks [3, 0, 0, 7] = false := by decide
theorem test_host_checks_refuse_odd_length : hostChecks [3, 0, 4] = false := by decide
theorem test_launch_refuses_cell_eight :
    launchNumbers [0, 8] 1 2 3 = .error (.badCell (.cellAbove7 8)) := by decide
theorem test_launch_refuses_wide_value :
    launchWith (some 128) [0, 1] 1 (2 ^ 128) 3 = .error (.valueTooWide .B (2 ^ 128)) := by decide
theorem test_launch_refuses_narrow_width :
    launchWith (some 64) [0, 1] 1 2 3 = .error (.widthTooSmall 64) := by decide

/-! ### The instructions: vectors of spec/95_test_vectors.md, by their ids there -/

/-- H2 -/
theorem test_adv_floor :
    nextOf (step (st [0, 1] 0 13 0 0)) = some (st [0, 1] 2 6 0 0) := by decide
/-- H10: a huge amount is not reduced -/
theorem test_adv_huge_amount :
    nextOf (step (st [0, 5] 0 big (2 ^ 70) 0)) = some (st [0, 5] 2 0 (2 ^ 70) 0) := by decide
/-- H15: the old `B` is the amount -/
theorem test_bdv_old_b :
    nextOf (step (st [6, 5] 0 1000 3 0)) = some (st [6, 5] 2 1000 125 0) := by decide
/-- H18 -/
theorem test_bdv_seven : nextOf (step (st [6, 7] 0 1 1 1)) =
    some { st [6, 7] 0 1 1 1 with fault := some ⟨.invalidOperand, 0, .combo7⟩ } := by decide
/-- H23: the old `C` is the amount -/
theorem test_cdv_old_c :
    nextOf (step (st [7, 6] 0 1000 0 4)) = some (st [7, 6] 2 1000 0 62) := by decide
/-- H20 -/
theorem test_cdv_literal :
    nextOf (step (st [7, 3] 0 1000 0 7)) = some (st [7, 3] 2 1000 0 125) := by decide
/-- X3: 5 is the number 5, not `B` -/
theorem test_bxl_literal_five :
    nextOf (step (st [1, 5] 0 0 0 0)) = some (st [1, 5] 2 0 5 0) := by decide
/-- X5: high bits kept -/
theorem test_bxl_wide :
    nextOf (step (st [1, 7] 0 0 big 0)) = some (st [1, 7] 2 0 (big - 3) 0) := by decide
/-- X10: the source's own fixture S3 -/
theorem test_bst_c :
    nextOf (step (st [2, 6] 0 0 0 9)) = some (st [2, 6] 2 0 1 9) := by decide
/-- X11: all of the old `B` is lost -/
theorem test_bst_wide :
    nextOf (step (st [2, 4] 0 big 77 0)) = some (st [2, 4] 2 big 5 0) := by decide
/-- X13 -/
theorem test_bxc :
    nextOf (step (st [4, 0] 0 0 2024 43690)) = some (st [4, 0] 2 0 44354 43690) := by decide
/-- X14: operand 7 ignored -/
theorem test_bxc_seven :
    nextOf (step (st [4, 7] 0 0 5 5)) = some (st [4, 7] 2 0 0 5) := by decide
/-- J2: taken, no +2 -/
theorem test_jnz_taken :
    nextOf (step (st [0, 1, 5, 4, 3, 0] 4 364 0 0 [4])) =
      some (st [0, 1, 5, 4, 3, 0] 0 364 0 0 [4]) := by decide
/-- J5: a target of `L` is outside -/
theorem test_jnz_target_is_length : nextOf (step (st [3, 2] 0 1 0 0)) =
    some { st [3, 2] 0 1 0 0 with fault := some ⟨.programError, 0, .jumpOutOfRange 2⟩ } := by decide
/-- O3 -/
theorem test_out_register :
    nextOf (step (st [5, 4] 0 10 2 3)) = some (st [5, 4] 2 10 2 3 [2]) := by decide
/-- O8, second step: tokens in order of execution -/
theorem test_out_order :
    nextOf (step (st [5, 0, 5, 1, 5, 4] 2 10 0 0 [0])) =
      some (st [5, 0, 5, 1, 5, 4] 4 10 0 0 [0, 1]) := by decide

/-! ### The step -/

/-- J9: even `bxc` needs its operand cell -/
theorem test_lone_cell_faults : nextOf (step (st [4] 0 0 0 0)) =
    some { st [4] 0 0 0 0 with fault := some ⟨.programError, 0, .incompletePair⟩ } := by decide
/-- J14, second step: the same cells read at an odd `ip` -/
theorem test_odd_fetch :
    nextOf (step (st [3, 1, 0, 7] 1 1 0 0)) = some (st [3, 1, 0, 7] 3 1 0 0) := by decide
/-- J11: the empty program is halted at once -/
theorem test_empty_program_is_halted :
    faultOf (step (st [] 0 5 6 7)) = some .halted := by decide
/-- R69: no step leaves the faulted state -/
theorem test_faulted_has_no_step :
    faultOf (step { st [4, 0] 0 0 0 0 with fault := some ⟨.programError, 0, .incompletePair⟩ }) =
      some (.failed ⟨.programError, 0, .incompletePair⟩) := by decide
/-- J10: a partial output is no result -/
theorem test_partial_output_is_no_result :
    outputOf (runWithin 3 (st [5, 1, 5] 0 0 0 0)) = none := by decide
/-- S3: the output of the source's fixture -/
theorem test_empty_output : outputOf (runWithin 2 (st [2, 6] 0 0 0 9)) = some [] := by decide
/-- The first step after reset runs a placed word. -/
theorem test_placed_word_runs_from_reset :
    (nextOf (step (State.reset.withFetchWord 8 0o53))).map (fun t => (t.ip, t.out)) =
      some (2, [3]) := by decide
/-- A placed word at a later `ip` stands there. -/
theorem test_placed_word_at_ip :
    (nextOf (step ((st [3, 0] 5 1 2 3).withFetchWord 8 0o16))).map (fun t => (t.ip, t.B)) =
      some (7, 4) := by decide
/-- R82: the ports of a failed block -/
theorem test_ports_of_a_fault :
    ((nextOf (step (st [0, 7] 0 0 0 0))).map fun t =>
      ((portsOf t).faultKind, (portsOf t).faultLoc, causeFromPorts t.prog (portsOf t))) =
      some (2, some 0, some .combo7) := by decide

/-! ### Witnesses: for each statement with hypotheses, data that meets all of them -/

theorem witness_EncodeOfDecode : decode [5, 4, 1] = .ok (.out (.reg .A), [1]) := by decide
theorem witness_IllegalWords :
    (st [0, 7] 0 13 0 0).fault = none ∧
    (nextOf (exec (decodePair 0 7) (st [0, 7] 0 13 0 0))).isSome = true := by decide
theorem witness_ComboOperand_boundaries :
    (3 : Cell).toNat ≤ 3 ∧ combo (comboOfCell 3) (st [] 0 4 5 6) = some 3 ∧
    combo (comboOfCell 4) (st [] 0 4 5 6) = some 4 ∧
    combo (comboOfCell 6) (st [] 0 4 5 6) = some 6 := by decide
theorem witness_ShiftAmount :
    7 < 2 ^ 3 ∧ bitLength 7 ≤ 3 ∧ shiftRight 7 3 = 0 ∧ shiftRight 7 2 = 1 := by decide

/-- Legal and illegal operands exist for the shift family, with the values at which the corner cases
begin. -/
theorem witness_ShiftFamily_operands :
    Combo.reg .B ≠ .seven ∧ combo (.reg .B) (st [] 0 7 3 0) = some 3 ∧
    bitLength (st [] 0 7 3 0).A ≤ 3 ∧ (st [] 0 7 3 0).A ≠ 0 ∧
    combo (.lit 0) (st [] 0 7 3 0) = some 0 ∧ combo (.reg .A) (st [] 0 7 3 0) = some 7 ∧
    combo .seven (st [] 0 7 3 0) = none := by decide
theorem witness_Adv_completes :
    exec (.adv (.reg .B)) (st [0, 5] 0 1000 3 0) = .next (st [0, 5] 2 125 3 0) := rfl
theorem witness_Bdv_completes :
    exec (.bdv (.reg .C)) (st [6, 6] 0 1000 3 2) = .next (st [6, 6] 2 1000 250 2) := rfl
theorem witness_Cdv_completes :
    exec (.cdv (.reg .B)) (st [7, 5] 0 1000 3 9) = .next (st [7, 5] 2 1000 3 125) := rfl
theorem witness_Bxl_completes :
    exec (.bxl 7) (st [1, 7] 0 0 29 0) = .next (st [1, 7] 2 0 26 0) := rfl
theorem witness_Bst_completes :
    exec (.bst (.reg .B)) (st [2, 5] 0 0 29 0) = .next (st [2, 5] 2 0 5 0) := rfl
theorem witness_Bxc_completes :
    exec (.bxc 1) (st [4, 1] 0 0 big 5) = .next (st [4, 1] 2 0 (big - 5) 5) := rfl
theorem witness_Out_completes :
    exec (.out (.reg .C)) (st [5, 6] 0 1 2 43690) = .next (st [5, 6] 2 1 2 43690 [2]) := rfl
/-- `jnz` in its three cases, with a target at the last cell and at `L`. -/
theorem witness_Jnz_cases :
    exec (.jnz 7) (st [3, 7] 0 0 1 2) = .next (st [3, 7] 2 0 1 2) ∧
    exec (.jnz 1) (st [3, 1] 0 1 0 0) = .next (st [3, 1] 1 1 0 0) ∧
    exec (.jnz 2) (st [3, 2] 0 1 0 0) =
      .next { st [3, 2] 0 1 0 0 with fault := some ⟨.programError, 0, .jumpOutOfRange 2⟩ } :=
  ⟨rfl, rfl, rfl⟩
/-- The illegal operand's clause of each combo instruction, and of the frames. -/
theorem witness_combo_seven_faults :
    ∀ i, i = Instr.adv .seven ∨ i = .bst .seven ∨ i = .out .seven ∨ i = .bdv .seven ∨ i = .cdv .seven →
      exec i (st [0, 7] 0 13 2 3) =
        .next { st [0, 7] 0 13 2 3 with fault := some ⟨.invalidOperand, 0, .combo7⟩ } := by
  rintro i (rfl | rfl | rfl | rfl | rfl) <;> rfl
theorem witness_BLogicFrame :
    exec (.bst .seven) (st [2, 7] 0 1 2 3) =
      .next { st [2, 7] 0 1 2 3 with fault := some ⟨.invalidOperand, 0, .combo7⟩ } ∧
    exec (.bst (.lit 3)) (st [2, 3] 0 1 2 3) = .next (st [2, 3] 2 1 3 3) := ⟨rfl, rfl⟩
theorem witness_RegistersReadAndWritten :
    Reg.C ∉ instrReads (.adv (.lit 1)) ∧ Reg.C ∉ instrWrites (.adv (.lit 1)) ∧
    Reg.B ∉ instrReads (.bst (.lit 1)) ∧ Reg.B ∈ instrWrites (.bst (.lit 1)) ∧
    Reg.B ∉ instrReads (.bst .seven) ∧ (Instr.bst .seven).wellFormed = false := by decide
theorem witness_DefaultAdvance :
    exec (.jnz 1) (st [3, 1] 0 0 0 0) = .next (st [3, 1] 2 0 0 0) ∧
    exec (.jnz 1) (st [3, 1] 0 1 0 0) = .next (st [3, 1] 1 1 0 0) := ⟨rfl, rfl⟩
theorem witness_StepRuns :
    (st [3, 1, 0, 7] 1 1 0 0).fault = none ∧ readCell [3, 1, 0, 7] 1 = some 1 ∧
    readCell [3, 1, 0, 7] 2 = some 0 := by decide
theorem witness_PlacedWord_keeps_lower_cells :
    readCell ((st [3, 0] 2 1 2 3).withFetchWord 8 0o16).prog 1 = some 0 ∧
    ((st [3, 0] 2 1 2 3).withFetchWord 8 0o16).prog = [3, 0, 1, 6] := by decide
/-- Running, halted at `ip = L`, and faulted states. -/
theorem witness_statuses :
    (st [4, 0] 1 0 0 0).running = true ∧ (st [4, 0] 2 0 0 0).halted = true ∧
    State.faulted { st [4, 0] 1 0 0 0 with fault := some ⟨.programError, 1, .incompletePair⟩ } =
      true := by decide
theorem witness_IncompletePair :
    (st [3, 5, 5, 1, 5, 2] 5 1 0 0).fault = none ∧ 5 < [3, 5, 5, 1, 5, (2 : Cell)].length ∧
    [3, 5, 5, 1, 5, (2 : Cell)].length ≤ 5 + 1 := by decide
theorem witness_InvalidOperand_never :
    exec (.jnz 2) (st [3, 2] 0 1 0 0) =
      .next { st [3, 2] 0 1 0 0 with fault := some ⟨.programError, 0, .jumpOutOfRange 2⟩ } := rfl

/-- A step into a fault: the hypotheses of the statements about faulting steps. -/
theorem witness_faulting_step :
    step (st [3, 2] 0 1 0 0) =
      .next { st [3, 2] 0 1 0 0 with fault := some ⟨.programError, 0, .jumpOutOfRange 2⟩ } := rfl
/-- The condition of each cause holds somewhere. -/
theorem witness_RecordMatches :
    RecordMatches (st [4] 0 0 0 0) ⟨.programError, 0, .incompletePair⟩ ∧
    RecordMatches (st [3, 2] 0 1 0 0) ⟨.programError, 0, .jumpOutOfRange 2⟩ ∧
    RecordMatches (st [0, 7] 0 1 0 0) ⟨.invalidOperand, 0, .combo7⟩ :=
  ⟨⟨rfl, rfl, rfl⟩, ⟨rfl, rfl, by decide⟩, ⟨rfl, rfl, ⟨⟨0, rfl, .inl rfl⟩, rfl⟩⟩⟩
/-- A state with the invariant and a step from it. -/
theorem witness_Inv_step :
    Inv (st [5, 4, 3, 0] 0 5 0 0) ∧
    step (st [5, 4, 3, 0] 0 5 0 0) = .next (st [5, 4, 3, 0] 2 5 0 0 [5]) :=
  ⟨⟨Nat.zero_le _, by simp [st]⟩, rfl⟩
theorem witness_FitsWidth :
    3 ≤ 3 ∧ FitsWidth 3 (st [1, 7] 0 7 7 7) ∧
    Host.Core.run core 1 (st [1, 7] 0 7 7 7) = .next (st [1, 7] 2 7 0 7) :=
  ⟨by decide, by simp [FitsWidth, st], rfl⟩
theorem witness_run :
    Host.Core.run core 2 (st [5, 4, 3, 0] 0 5 0 0) = .next (st [5, 4, 3, 0] 0 5 0 0 [5]) := rfl
theorem witness_HostChecked :
    hostChecks [0, 1, 5, 4, 3, 0] = true ∧
    Host.Core.run core 1 (st [0, 1, 5, 4, 3, 0] 4 0 0 0) = .next (st [0, 1, 5, 4, 3, 0] 6 0 0 0) :=
  ⟨by decide, rfl⟩
theorem witness_JumpToItself :
    (st [3, 0] 0 1 0 0).fault = none ∧ (st [3, 0] 0 1 0 0).A ≠ 0 ∧ readCell [3, 0] 0 = some 3 ∧
    readCell [3, 0] 1 = some 0 ∧ (0 : Cell).toNat = (st [3, 0] 0 1 0 0).ip := by decide
/-- The runner's three outcomes, the halting ones with two budgets. -/
theorem witness_runner :
    runWithin 1 (st [2, 6] 0 0 0 9) = .halted (st [2, 6] 2 0 1 9) ∧
    runWithin 5 (st [2, 6] 0 0 0 9) = .halted (st [2, 6] 2 0 1 9) ∧
    runWithin 1 (st [0, 7] 0 0 0 0) = .failed ⟨.invalidOperand, 0, .combo7⟩ ∧
    runWithin 4 (st [0, 7] 0 0 0 0) = .failed ⟨.invalidOperand, 0, .combo7⟩ ∧
    runWithin 3 (st [3, 0] 0 1 0 0) = .outOfBudget (st [3, 0] 0 1 0 0) := by decide
theorem witness_Launch_accepted :
    launchNumbers [7, 0] 1 2 3 = .ok (st [7, 0] 0 1 2 3) ∧
    128 ≤ 128 ∧ launchWith (some 128) [7, 0] 1 (2 ^ 128 - 1) 3 =
      .ok (st [7, 0] 0 1 (2 ^ 128 - 1) 3) := by decide
theorem witness_MemRead :
    memRead [1, 2, 3] 1 2 = some [2, 3] ∧ memRead [1, 2, 3] 2 2 = none ∧
    memRead [1, 2, 3] 3 0 = some [] := by decide
theorem witness_TokenPort :
    (portsOf (st [5, 4] 0 10 2 3)).outToken = some 2 ∧
    (clockEdge ⟨false, 0, 0, 0, []⟩ (st [5, 4] 0 10 2 3)).out = [2] ∧
    (portsOf (st [5, 7] 0 10 2 3)).outValid = false := by decide
theorem witness_FaultCause_on_ports :
    Inv { st [3, 2] 0 1 0 0 with fault := some ⟨.programError, 0, .jumpOutOfRange 2⟩ } := by
  refine ⟨Nat.zero_le _, fun r hr => ?_⟩
  cases hr
  exact ⟨rfl, rfl, rfl, rfl, Nat.one_ne_zero, Nat.le_refl 2⟩
theorem witness_OnlyStart :
    (st [4, 0] 2 0 0 0).halted = true ∧
    clockEdge ⟨false, 9, 9, 9, []⟩ (st [4, 0] 2 0 0 0) = st [4, 0] 2 0 0 0 ∧
    clockEdge ⟨true, 9, 8, 7, [1]⟩ (st [4, 0] 2 0 0 0) = st [1] 0 9 8 7 := by decide

end Sys2Proof.Tests
end

