-- ==== Sys2Proof/Proofs/Output.lean ====
section
/-! SUPPORT. The output sequence (spec/10_state.md R14): what an instruction, a step and a run do to it,
and that nothing an instruction does depends on it. -/

namespace Sys2Proof.Machine

/-! ### Who writes the output -/

/-- The writes of an instruction leave the output alone, or the instruction is `out` and appends one token. -/
theorem effect_out_cases (i : Instr) (v : Nat) (s : State) :
    (effect i v s).out = s.out ∨ ((∃ x, i = .out x) ∧ (effect i v s).out = s.out ++ [tokenOf v]) := by
  cases i with
  | out x => exact .inr ⟨⟨x, rfl⟩, rfl⟩
  | _ => exact .inl rfl

/-- Everything an instruction can do to the output (R14). -/
theorem exec_out_cases {i : Instr} {s t : State} (h : exec i s = .next t) :
    t.out = s.out ∨ ((∃ x, i = .out x) ∧ ∃ tok, t.out = s.out ++ [tok]) := by
  obtain ⟨v, -, -, rfl⟩ | ⟨x, -, -, -, rfl⟩ | ⟨x, -, -, -, rfl⟩ | ⟨-, rfl⟩ := exec_cases h
  · exact (effect_out_cases i v s).imp_right fun ⟨hi, ho⟩ => ⟨hi, _, ho⟩
  · exact .inl rfl
  · exact .inl rfl
  · exact .inl rfl

/-- An `out` with a legal operand appends exactly one token (R59). -/
theorem exec_out_appends {x : Combo} {s t : State} (hx : x ≠ .seven)
    (h : exec (.out x) s = .next t) : ∃ tok, t.out = s.out ++ [tok] := by
  obtain ⟨v, -, rfl⟩ | ⟨hseven, -⟩ := withCombo_cases h
  · exact ⟨tokenOf v, rfl⟩
  · exact absurd hseven hx

/-! ### Steps and runs -/

/-- A step appends at most one token and keeps the earlier output. -/
theorem step_out_grows {s t : State} (h : step s = .next t) :
    ∃ later, t.out = s.out ++ later ∧ later.length ≤ 1 := by
  obtain ⟨-, -, ⟨-, rfl⟩ | ⟨op, x, -, -, hexec⟩⟩ := step_cases h
  · exact ⟨[], by simp⟩
  · obtain hsame | ⟨-, tok, happ⟩ := exec_out_cases hexec
    · exact ⟨[], by simp [hsame]⟩
    · exact ⟨[tok], happ, le_rfl⟩

/-- A run of `k` steps appends at most `k` tokens and keeps the earlier output. -/
theorem core_run_out_grows (k : Nat) {s t : State}
    (h : Host.Core.run Sys2Proof.core k s = .next t) :
    ∃ later, t.out = s.out ++ later ∧ later.length ≤ k := by
  induction k generalizing s with
  | zero => exact ⟨[], by simp [← Host.Outcome.next.inj h]⟩
  | succ k ih =>
    obtain ⟨u, hstep, hrest⟩ := core_run_succ_cases h
    obtain ⟨first, hu, hfirst⟩ := step_out_grows hstep
    obtain ⟨later, ht, hlater⟩ := ih hrest
    refine ⟨first ++ later, by rw [ht, hu, List.append_assoc], ?_⟩
    rw [List.length_append]
    omega

/-! ### No instruction reads the output -/

/-- The state with another output sequence. -/
def State.withOut (s : State) (o : List Token) : State := { s with out := o }

section
variable (s : State) (o : List Token)

@[simp] theorem State.withOut_A : (s.withOut o).A = s.A := rfl
@[simp] theorem State.withOut_aIsZero : (s.withOut o).aIsZero = s.aIsZero := rfl
@[simp] theorem State.withOut_progLen : (s.withOut o).progLen = s.progLen := rfl

@[simp] theorem State.advance_withOut : (s.withOut o).advance = s.advance.withOut o := rfl
@[simp] theorem State.jumpTo_withOut (t : Nat) : (s.withOut o).jumpTo t = (s.jumpTo t).withOut o := rfl
@[simp] theorem State.takeFault_withOut (c : FaultCause) :
    (s.withOut o).takeFault c = (s.takeFault c).withOut o := rfl
@[simp] theorem State.setReg_withOut (r : Reg) (v : Nat) :
    (s.withOut o).setReg r v = (s.setReg r v).withOut o := by cases r <;> rfl
@[simp] theorem State.appendToken_withOut (tok : Token) :
    (s.withOut o).appendToken tok = (s.appendToken tok).withOut (o ++ [tok]) := rfl

@[simp] theorem combo_withOut (x : Combo) : combo x (s.withOut o) = combo x s := by
  cases x with
  | reg r => cases r <;> rfl
  | _ => rfl

end

/-- Resolving a combo operand does not read the output when what follows it does not. -/
theorem withCombo_withOut {x : Combo} {s t : State} {o : List Token} {k k' : Nat → State}
    (hk : ∀ v, ∃ o', k' v = (k v).withOut o') (h : withCombo x s k = .next t) :
    ∃ o', withCombo x (s.withOut o) k' = .next (t.withOut o') := by
  obtain ⟨v, hv, rfl⟩ | ⟨rfl, rfl⟩ := withCombo_cases h
  · obtain ⟨o', ho'⟩ := hk v
    exact ⟨o', by rw [withCombo_some ((combo_withOut s o x).trans hv), ho']⟩
  · exact ⟨o, rfl⟩

/-- `jnz` carries the output along in each of its three cases. -/
theorem execJnz_withOut {x : Cell} {s t : State} (o : List Token) (h : execJnz x s = .next t) :
    execJnz x (s.withOut o) = .next (t.withOut o) := by
  unfold execJnz literal
  obtain ⟨ha, rfl⟩ | ⟨ha, hx, rfl⟩ | ⟨ha, hx, rfl⟩ := execJnz_cases h
  · simp [State.aIsZero, ha]
  · simp [State.aIsZero, ha, hx]
  · simp [State.aIsZero, ha, hx.not_ge]

/-- With another output before it, an instruction reaches the same state but for the output (R14). -/
theorem exec_withOut {i : Instr} {s t : State} (o : List Token) (h : exec i s = .next t) :
    ∃ o', exec i (s.withOut o) = .next (t.withOut o') := by
  cases i with
  | adv x => exact withCombo_withOut (fun _ => ⟨o, by simp⟩) h
  | bst x => exact withCombo_withOut (fun _ => ⟨o, by simp⟩) h
  | bdv x => exact withCombo_withOut (fun _ => ⟨o, by simp⟩) h
  | cdv x => exact withCombo_withOut (fun _ => ⟨o, by simp⟩) h
  | out x => exact withCombo_withOut (fun v => ⟨o ++ [tokenOf v], by simp⟩) h
  | bxl x => exact ⟨o, by rw [← Host.Outcome.next.inj h]; rfl⟩
  | bxc x => exact ⟨o, by rw [← Host.Outcome.next.inj h]; rfl⟩
  | jnz x => exact ⟨o, execJnz_withOut o h⟩

/-! ### The result of a run -/

/-- The result of a run that halts is the output of the state it halts in (R47). -/
theorem outputOf_halted {n : Nat} {s t : State} (h : runWithin n s = .halted t) :
    outputOf (runWithin n s) = some t.out := by
  rw [h]
  rfl

/-- Settles O38: `exec_out_cases` says who writes the output, `core_run_out_grows` carries it over a
run, and `exec_withOut` says that no instruction reads it. -/
theorem outputSequenceOnlyGrows : Obligations.OutputSequenceOnlyGrows := by
  refine ⟨launch_out, fun i s t h hi => ?_, fun _ _ _ => exec_out_appends,
    fun k _ _ => core_run_out_grows k, fun i s t o h => ?_, fun _ _ _ => outputOf_halted⟩
  · exact (exec_out_cases h).resolve_right fun ⟨⟨x, hx⟩, _⟩ => hi x hx
  · obtain ⟨o', ho'⟩ := exec_withOut o h
    exact ⟨t.withOut o', ho', rfl⟩

end Sys2Proof.Machine
end

section
/-! SUPPORT. The opcode map (spec/30_encoding.md R31, R36). -/

namespace Sys2Proof.Machine

/-- Settles O2: one row of the opcode map for each opcode, at any operand cell. -/
theorem opcodeSelectsInstructionAndOperandKind :
    Obligations.OpcodeSelectsInstructionAndOperandKind := fun x =>
  ⟨decodePair_adv x, decodePair_bxl x, decodePair_bst x, decodePair_jnz x, decodePair_bxc x,
    decodePair_out x, decodePair_bdv x, decodePair_cdv x⟩

end Sys2Proof.Machine
end

section
/-! SUPPORT. The two exclusive-or instructions `bxl` and `bxc` (spec/42_b_logic_family.md R54, R56). -/

namespace Sys2Proof.Machine

/-! ### The next state -/

/-- The whole next state of `bxl` (R54). -/
theorem exec_bxl (x : Cell) (s : State) :
    exec (.bxl x) s = .next { s with B := s.B ^^^ x.toNat, ip := s.ip + 2 } := rfl

/-- The whole next state of `bxc`: the operand cell does not occur in it (R56). -/
theorem exec_bxc (x : Cell) (s : State) :
    exec (.bxc x) s = .next { s with B := s.B ^^^ s.C, ip := s.ip + 2 } := rfl

/-! ### The value -/

/-- A cell has three bits, so exclusive or with it keeps every bit above the third. -/
theorem xor_cell_div_eight (b : Nat) (x : Cell) : (b ^^^ x.toNat) / 8 = b / 8 := by
  have hx : x.toNat / 2 ^ 3 = 0 := Nat.div_eq_of_lt x.isLt
  calc (b ^^^ x.toNat) / 2 ^ 3
      = b / 2 ^ 3 ^^^ x.toNat / 2 ^ 3 := Nat.xor_div_two_pow
    _ = b / 2 ^ 3 := by rw [hx, Nat.xor_zero]

/-! ### The same change of `B` again -/

/-- Two `bxl` with the same literal restore `B`. -/
theorem exec_bxl_twice (x : Cell) (s : State) :
    ∃ t u, exec (.bxl x) s = .next t ∧ exec (.bxl x) t = .next u ∧ u.B = s.B :=
  ⟨_, _, exec_bxl x s, exec_bxl x _, Nat.xor_xor_cancel_right s.B x.toNat⟩

/-- Two `bxc`, whatever their operand cells, restore `B`: the first one keeps `C`. -/
theorem exec_bxc_twice (x y : Cell) (s : State) :
    ∃ t u, exec (.bxc x) s = .next t ∧ exec (.bxc y) t = .next u ∧ u.B = s.B :=
  ⟨_, _, exec_bxc x s, exec_bxc y _, Nat.xor_xor_cancel_right s.B s.C⟩

/-- Settles O13: `exec_bxl` gives the next state, `xor_cell_div_eight` the kept high bits, and
`exec_bxl_twice` the restored `B`. -/
theorem bxlXorsBWithLiteral : Obligations.BxlXorsBWithLiteral := by
  refine fun x s => ⟨rfl, exec_bxl x s, xor_cell_div_eight s.B x, ?zero, ?load, exec_bxl_twice x s⟩
  case zero => rintro rfl; exact Nat.xor_zero s.B
  case load => intro hB; rw [hB, Nat.zero_xor]

/-- Settles O15: `exec_bxc` gives the next state at any operand cell, and `exec_bxc_twice` the
restored `B`. -/
theorem bxcXorsBWithC : Obligations.BxcXorsBWithC := by
  refine fun x s => ⟨rfl, exec_bxc x s, ?zero, ?same, fun y => exec_bxc_twice x y s⟩
  case zero => intro hC; rw [hC, Nat.xor_zero]
  case same => intro hB; rw [hB, Nat.xor_self]

end Sys2Proof.Machine
end

section
/-! SUPPORT. The decoder and the encoder are inverse to each other (spec/30_encoding.md R30 to
R37). -/

namespace Sys2Proof.Machine

/-- The opcode map reads an instruction back from its two cells. -/
@[simp] theorem decodePair_opcodeCell_operandCell (i : Instr) :
    decodePair (opcodeCell i) (operandCell i) = i := by
  cases i with
  | bxl x => rfl
  | jnz x => rfl
  | bxc x => rfl
  | adv x => exact congrArg Instr.adv (comboOfCell_cellOfCombo x)
  | bst x => exact congrArg Instr.bst (comboOfCell_cellOfCombo x)
  | out x => exact congrArg Instr.out (comboOfCell_cellOfCombo x)
  | bdv x => exact congrArg Instr.bdv (comboOfCell_cellOfCombo x)
  | cdv x => exact congrArg Instr.cdv (comboOfCell_cellOfCombo x)

/-- The encoder writes back the two cells that the opcode map read, for all 64 words. -/
@[simp] theorem encode_decodePair (op x : Cell) : encode (decodePair op x) = [op, x] := by
  revert op x; decide

/-- Settles O3: the two cells of the encoding stand in front, and the opcode map reads them back. -/
theorem decodeOfEncodeIsTheInstruction : Obligations.DecodeOfEncodeIsTheInstruction := by
  intro i rest
  simp [encode, decode]

/-- Settles O4: only a sequence that begins with a pair decodes, and the pair is written back. -/
theorem encodeOfDecodeIsTheCells : Obligations.EncodeOfDecodeIsTheCells := by
  intro cells i rest h
  match cells with
  | [] => cases h
  | [_] => cases h
  | op :: x :: tail =>
    cases h
    rw [encode_decodePair]
    rfl

/-- Settles O5, by how many cells the sequence has. -/
theorem decodeFailsOnlyWithoutAPair : Obligations.DecodeFailsOnlyWithoutAPair := by
  intro cells
  match cells with
  | [] => simp [decode]
  | [_] => simp [decode]
  | op :: x :: tail => simp [decode]

/-- Settles O1: ten closed evaluations of the decoder. -/
theorem tableWordsDecodeAsListed : Obligations.TableWordsDecodeAsListed := by
  unfold Obligations.TableWordsDecodeAsListed
  decide

end Sys2Proof.Machine
end

section
/-! SUPPORT. The exact arithmetic of spec/40_step_cycle.md R50. -/

namespace Sys2Proof.Machine

theorem shiftRight_eq_div (a n : Nat) : shiftRight a n = a / 2 ^ n := Nat.shiftRight_eq_div_pow a n

/-- A shift by at least the bit length of its operand leaves no bit. -/
theorem shiftRight_eq_zero_of_bitLength_le {a n : Nat} (h : bitLength a ≤ n) :
    shiftRight a n = 0 :=
  Nat.shiftRight_eq_zero a n ((bitLength_le_iff a n).1 h)

theorem shiftRight_self (a : Nat) : shiftRight a a = 0 :=
  Nat.shiftRight_eq_zero a a Nat.lt_two_pow_self

/-- A shift that moves a nonzero number makes it smaller. -/
theorem shiftRight_lt {a n : Nat} (ha : a ≠ 0) (hn : 1 ≤ n) : shiftRight a n < a := by
  rw [shiftRight_eq_div]
  exact Nat.div_lt_self (Nat.pos_of_ne_zero ha) (Nat.one_lt_two_pow (Nat.one_le_iff_ne_zero.1 hn))

/-- Settles O8: R50's three definitions, the token's value by `tokenOf_toNat`. -/
theorem arithmeticIsExact : Obligations.ArithmeticIsExact := fun a b n i =>
  ⟨shiftRight_eq_div a n, Nat.testBit_xor a b i, rfl, tokenOf_toNat a⟩

/-- Settles O9: a shift by the bit length or more gives 0, and any shift by 1 or more gives less. -/
theorem shiftAmountIsNotReduced : Obligations.ShiftAmountIsNotReduced := fun a n =>
  ⟨Nat.shiftRight_eq_zero a n, shiftRight_eq_zero_of_bitLength_le, shiftRight_self a,
    shiftRight_le a n, shiftRight_lt⟩

end Sys2Proof.Machine
end

section
/-! SUPPORT. What each way an instruction can go needs in order to happen: with `exec_cases`, which
says that there is no other way, these determine the next state. -/

namespace Sys2Proof.Machine

/-! ### Operands -/

theorem exists_combo_of_ne_seven {x : Combo} (hx : x ≠ .seven) (s : State) :
    ∃ v, combo x s = some v :=
  Option.ne_none_iff_exists'.1 fun h => hx ((combo_eq_none_iff x s).1 h)

/-- The operand is illegal exactly in a combo instruction with operand 7 (R37). -/
theorem wellFormed_eq_false_iff (i : Instr) :
    i.wellFormed = false ↔ comboOperand i = some .seven := by
  have hseven (x : Combo) : x.wellFormed = false ↔ some x = some Combo.seven := by
    rw [← Bool.not_eq_true, combo_wellFormed_iff, not_not, Option.some_inj]
  cases i with
  | adv x => exact hseven x
  | bst x => exact hseven x
  | out x => exact hseven x
  | bdv x => exact hseven x
  | cdv x => exact hseven x
  | bxl x => simp [Instr.wellFormed, comboOperand]
  | jnz x => simp [Instr.wellFormed, comboOperand]
  | bxc x => simp [Instr.wellFormed, comboOperand]

/-- The illegal words in cells: operand 7 behind one of the five combo opcodes (R37). -/
theorem decodePair_wellFormed_eq_false_iff (op x : Cell) :
    (decodePair op x).wellFormed = false ↔
      x = 7 ∧ (op = 0 ∨ op = 2 ∨ op = 5 ∨ op = 6 ∨ op = 7) := by
  revert op x; decide

theorem comboOperand_decodePair_seven {op : Cell}
    (h : op = 0 ∨ op = 2 ∨ op = 5 ∨ op = 6 ∨ op = 7) :
    comboOperand (decodePair op 7) = some .seven :=
  (wellFormed_eq_false_iff _).1 ((decodePair_wellFormed_eq_false_iff op 7).2 ⟨rfl, h⟩)

/-- Resolving a combo operand ends in a next state, with a value or with the fault. -/
theorem exists_withCombo_eq_next (x : Combo) (s : State) (k : Nat → State) :
    ∃ t, withCombo x s k = .next t := by
  rcases eq_or_ne x .seven with rfl | hx
  · exact ⟨_, withCombo_seven s k⟩
  · obtain ⟨v, hv⟩ := exists_combo_of_ne_seven hx s
    exact ⟨_, withCombo_some hv k⟩

/-! ### `jnz` in its three cases (R57) -/

theorem exec_jnz_of_zero {s : State} (x : Cell) (ha : s.A = 0) :
    exec (.jnz x) s = .next s.advance :=
  if_pos (s.aIsZero_iff.2 ha)

theorem exec_jnz_of_le {x : Cell} {s : State} (ha : s.A ≠ 0) (hx : s.progLen ≤ x.toNat) :
    exec (.jnz x) s = .next (s.takeFault (.jumpOutOfRange x)) :=
  (if_neg fun h => ha (s.aIsZero_iff.1 h)).trans (if_pos hx)

theorem exec_jnz_of_lt {x : Cell} {s : State} (ha : s.A ≠ 0) (hx : x.toNat < s.progLen) :
    exec (.jnz x) s = .next (s.jumpTo x.toNat) :=
  (if_neg fun h => ha (s.aIsZero_iff.1 h)).trans (if_neg hx.not_ge)

/-! ### Any instruction -/

/-- A combo instruction with operand 7 takes the fault and does nothing else (R65). -/
theorem exec_of_seven {i : Instr} (hi : comboOperand i = some .seven) (s : State) :
    exec i s = .next (s.takeFault .combo7) := by
  cases i with
  | adv x => cases hi; rfl
  | bst x => cases hi; rfl
  | out x => cases hi; rfl
  | bdv x => cases hi; rfl
  | cdv x => cases hi; rfl
  | bxl x => cases hi
  | jnz x => cases hi
  | bxc x => cases hi

/-- An instruction whose operand has the value `v`, and which is no taken jump, makes its writes and
advances (R45). -/
theorem exec_of_completes {i : Instr} {s : State} {v : Nat}
    (hv : ∀ x, comboOperand i = some x → combo x s = some v) (hj : ∀ x, i = .jnz x → s.A = 0) :
    exec i s = .next (effect i v s).advance := by
  cases i with
  | adv x => exact withCombo_some (hv x rfl) _
  | bst x => exact withCombo_some (hv x rfl) _
  | out x => exact withCombo_some (hv x rfl) _
  | bdv x => exact withCombo_some (hv x rfl) _
  | cdv x => exact withCombo_some (hv x rfl) _
  | bxl x => rfl
  | bxc x => rfl
  | jnz x => exact exec_jnz_of_zero x (hj x rfl)

/-- A combo instruction with a legal operand completes. -/
theorem exec_of_combo {i : Instr} {x : Combo} {s : State} {v : Nat} (hi : comboOperand i = some x)
    (hv : combo x s = some v) : exec i s = .next (effect i v s).advance := by
  refine exec_of_completes (fun y hy => ?_) (fun y hy => ?_)
  · cases hi.symm.trans hy
    exact hv
  · subst hy
    cases hi

/-- Every instruction answers a next state. -/
theorem exists_exec_eq_next (i : Instr) (s : State) : ∃ t, exec i s = .next t := by
  cases i with
  | bxl x => exact ⟨_, rfl⟩
  | bxc x => exact ⟨_, rfl⟩
  | jnz x =>
    rcases eq_or_ne s.A 0 with ha | ha
    · exact ⟨_, exec_jnz_of_zero x ha⟩
    · rcases lt_or_ge x.toNat s.progLen with hx | hx
      · exact ⟨_, exec_jnz_of_lt ha hx⟩
      · exact ⟨_, exec_jnz_of_le ha hx⟩
  | adv x => exact exists_withCombo_eq_next x s _
  | bst x => exact exists_withCombo_eq_next x s _
  | out x => exact exists_withCombo_eq_next x s _
  | bdv x => exact exists_withCombo_eq_next x s _
  | cdv x => exact exists_withCombo_eq_next x s _

/-! ### What the writes leave alone -/

section
variable (i : Instr) (v : Nat) (s : State)

@[simp] theorem effect_ip : (effect i v s).ip = s.ip := by cases i <;> rfl
@[simp] theorem effect_fault : (effect i v s).fault = s.fault := by cases i <;> rfl
@[simp] theorem effect_prog : (effect i v s).prog = s.prog := by cases i <;> rfl

/-- The writes stay inside the write column of R12's table. -/
theorem effect_reg_of_notMem_writes {r : Reg} (hr : r ∉ instrWrites i) :
    (effect i v s).reg r = s.reg r := by
  cases i with
  | jnz x => rfl
  | out x => cases r <;> rfl
  | adv x => exact State.reg_setReg_of_ne s _ (List.ne_of_not_mem_cons hr)
  | bxl x => exact State.reg_setReg_of_ne s _ (List.ne_of_not_mem_cons hr)
  | bst x => exact State.reg_setReg_of_ne s _ (List.ne_of_not_mem_cons hr)
  | bxc x => exact State.reg_setReg_of_ne s _ (List.ne_of_not_mem_cons hr)
  | bdv x => exact State.reg_setReg_of_ne s _ (List.ne_of_not_mem_cons hr)
  | cdv x => exact State.reg_setReg_of_ne s _ (List.ne_of_not_mem_cons hr)

end

@[simp] theorem State.reg_advance (s : State) (r : Reg) : s.advance.reg r = s.reg r := by
  cases r <;> rfl

@[simp] theorem State.reg_takeFault (s : State) (c : FaultCause) (r : Reg) :
    (s.takeFault c).reg r = s.reg r := by
  cases r <;> rfl

@[simp] theorem State.reg_jumpTo (s : State) (t : Nat) (r : Reg) :
    (s.jumpTo t).reg r = s.reg r := by
  cases r <;> rfl

/-! ### What an instruction leaves alone -/

section
variable {i : Instr} {s t : State}

/-- No instruction writes the program (R15, R28). -/
theorem exec_prog (h : exec i s = .next t) : t.prog = s.prog := by
  obtain ⟨v, -, -, rfl⟩ | ⟨x, -, -, -, rfl⟩ | ⟨x, -, -, -, rfl⟩ | ⟨-, rfl⟩ := exec_cases h
  · exact effect_prog i v s
  · rfl
  · rfl
  · rfl

/-- An instruction changes no register outside its write column (R12). -/
theorem exec_reg_of_notMem_writes (h : exec i s = .next t) {r : Reg} (hr : r ∉ instrWrites i) :
    t.reg r = s.reg r := by
  obtain ⟨v, -, -, rfl⟩ | ⟨x, -, -, -, rfl⟩ | ⟨x, -, -, -, rfl⟩ | ⟨-, rfl⟩ := exec_cases h
  · exact (State.reg_advance _ r).trans (effect_reg_of_notMem_writes i v s hr)
  · exact State.reg_jumpTo s _ r
  · exact State.reg_takeFault s _ r
  · exact State.reg_takeFault s _ r

/-- Only `out` writes the output (R14). -/
theorem exec_out_of_ne_out (h : exec i s = .next t) (hi : ∀ x, i ≠ .out x) : t.out = s.out :=
  (exec_out_cases h).resolve_right fun ⟨⟨x, hx⟩, _⟩ => hi x hx

/-- An instruction that is no `jnz` and whose operand is legal leaves the fault record alone. -/
theorem exec_fault_of_legal (h : exec i s = .next t) (hj : ∀ x, i ≠ .jnz x)
    (hi : comboOperand i ≠ some .seven) : t.fault = s.fault := by
  obtain ⟨v, -, -, rfl⟩ | ⟨x, hx, -⟩ | ⟨x, hx, -⟩ | ⟨hx, -⟩ := exec_cases h
  · exact effect_fault i v s
  · exact absurd hx (hj x)
  · exact absurd hx (hj x)
  · exact absurd hx hi

/-- With operand 7 the next state of a combo instruction is the one that takes the fault. -/
theorem eq_takeFault_of_seven (h : exec i s = .next t) (hi : comboOperand i = some .seven) :
    t = s.takeFault .combo7 :=
  Host.Outcome.next.inj (h.symm.trans (exec_of_seven hi s))

end

end Sys2Proof.Machine
end

section
/-! SUPPORT. The combo instructions and `jnz`: the whole next state of each
(spec/41_shift_family.md, spec/42_b_logic_family.md R55, spec/43_jnz.md, spec/44_out.md), and the
fault of operand 7 (spec/30_encoding.md R34, R37; spec/60_exceptions.md R65). -/

namespace Sys2Proof.Machine

/-! ### Combo operands -/

/-- Operand cells 0 to 3 are literals of the same value (R34). -/
theorem comboOfCell_of_le_three {x : Cell} (hx : x.toNat ≤ 3) :
    comboOfCell x = .lit (x.setWidth 2) := by
  revert x; decide

theorem combo_comboOfCell_of_le_three {x : Cell} (hx : x.toNat ≤ 3) (s : State) :
    combo (comboOfCell x) s = some x.toNat := by
  rw [comboOfCell_of_le_three hx, combo_lit, BitVec.toNat_setWidth, Nat.mod_eq_of_lt (by omega)]

/-- Settles O7: the literals by `combo_comboOfCell_of_le_three`, the fault by `exec_of_seven`. -/
theorem comboOperandResolves : Obligations.ComboOperandResolves := fun s =>
  ⟨fun _ hx => combo_comboOfCell_of_le_three hx s, rfl, rfl, rfl, fun _ hop =>
    ⟨_, exec_of_seven (comboOperand_decodePair_seven hop) s, rfl⟩⟩

/-- Operand 7: the record at `ip`, with `ip` and every register as before (R65, decision D7). -/
theorem exec_seven_takesFault {i : Instr} {x : Combo} (hi : comboOperand i = some x)
    (hx : x = .seven) (s : State) (r : Reg) :
    ∃ t, exec i s = .next t ∧ t.fault = some ⟨.invalidOperand, s.ip, .combo7⟩ ∧
      t.reg r = s.reg r ∧ t.ip = s.ip := by
  subst hx
  exact ⟨_, exec_of_seven hi s, rfl, State.reg_takeFault s _ r, rfl⟩

/-! ### The shift family -/

section
variable {x : Combo} {s : State} {v : Nat}

/-- The whole next state of `adv` with a legal operand (R51). -/
theorem exec_adv_of_combo (hv : combo x s = some v) :
    exec (.adv x) s = .next { s with A := s.A / 2 ^ v, ip := s.ip + 2 } := by
  rw [exec_of_combo rfl hv, ← shiftRight_eq_div]
  rfl

/-- The whole next state of `bdv` with a legal operand (R52). -/
theorem exec_bdv_of_combo (hv : combo x s = some v) :
    exec (.bdv x) s = .next { s with B := s.A / 2 ^ v, ip := s.ip + 2 } := by
  rw [exec_of_combo rfl hv, ← shiftRight_eq_div]
  rfl

/-- The whole next state of `cdv` with a legal operand (R53). -/
theorem exec_cdv_of_combo (hv : combo x s = some v) :
    exec (.cdv x) s = .next { s with C := s.A / 2 ^ v, ip := s.ip + 2 } := by
  rw [exec_of_combo rfl hv, ← shiftRight_eq_div]
  rfl

/-- An amount of 0 keeps the whole of `A`. -/
theorem div_two_pow_of_lit_zero (hv : combo x s = some v) (hx : x = .lit 0) :
    s.A / 2 ^ v = s.A := by
  subst hx
  cases hv
  exact Nat.div_one s.A

/-- Shifting `A` by itself leaves nothing. -/
theorem div_two_pow_of_reg_A (hv : combo x s = some v) (hx : x = .reg .A) : s.A / 2 ^ v = 0 := by
  subst hx
  cases hv
  exact (shiftRight_eq_div _ _).symm.trans (shiftRight_self s.A)

/-- A register operand has the register's value before the step (R46). -/
theorem combo_value_of_reg (hv : combo x s = some v) {r : Reg} (hx : x = .reg r) : v = s.reg r := by
  subst hx
  exact (Option.some.inj hv).symm

end

/-- Settles O10: `exec_adv_of_combo` gives the next state, the laws of the shift its corner cases,
and `exec_seven_takesFault` the fault. -/
theorem advShiftsAIntoA : Obligations.AdvShiftsAIntoA := by
  refine fun x s => ⟨rfl, fun hx => ?_, fun hx => exec_seven_takesFault rfl hx s .A⟩
  obtain ⟨v, hv⟩ := exists_combo_of_ne_seven hx s
  refine ⟨v, hv, exec_adv_of_combo hv, div_two_pow_of_lit_zero hv, div_two_pow_of_reg_A hv, ?_⟩
  rw [← shiftRight_eq_div]
  exact ⟨shiftRight_eq_zero_of_bitLength_le, shiftRight_le s.A v, shiftRight_lt⟩

/-- Settles O11: `exec_bdv_of_combo` gives the next state and `exec_seven_takesFault` the fault. -/
theorem bdvShiftsAIntoB : Obligations.BdvShiftsAIntoB := by
  refine fun x s => ⟨rfl, fun hx => ?_, fun hx => exec_seven_takesFault rfl hx s .B⟩
  obtain ⟨v, hv⟩ := exists_combo_of_ne_seven hx s
  exact ⟨v, hv, exec_bdv_of_combo hv, div_two_pow_of_lit_zero hv, div_two_pow_of_reg_A hv,
    combo_value_of_reg hv⟩

/-- Settles O12: `exec_cdv_of_combo` gives the next state and `exec_seven_takesFault` the fault. -/
theorem cdvShiftsAIntoC : Obligations.CdvShiftsAIntoC := by
  refine fun x s => ⟨rfl, fun hx => ?_, fun hx => exec_seven_takesFault rfl hx s .C⟩
  obtain ⟨v, hv⟩ := exists_combo_of_ne_seven hx s
  exact ⟨v, hv, exec_cdv_of_combo hv, div_two_pow_of_lit_zero hv, div_two_pow_of_reg_A hv,
    combo_value_of_reg hv⟩

/-! ### `bst`, `out` and `jnz` -/

/-- Settles O14: `exec_of_combo` gives the next state and `exec_seven_takesFault` the fault. -/
theorem bstLoadsLowThreeBits : Obligations.BstLoadsLowThreeBits := by
  refine fun x s => ⟨rfl, fun hx => ?_, fun hx => exec_seven_takesFault rfl hx s .B⟩
  obtain ⟨v, hv⟩ := exists_combo_of_ne_seven hx s
  exact ⟨v, hv, exec_of_combo rfl hv, mod8_lt v⟩

/-- Settles O16: the token is `tokenOf` of the operand's value; with operand 7 there is none. -/
theorem outAppendsOneToken : Obligations.OutAppendsOneToken := by
  refine fun x s => ⟨rfl, fun hx => ?legal, ?seven⟩
  case legal =>
    obtain ⟨v, hv⟩ := exists_combo_of_ne_seven hx s
    exact ⟨v, tokenOf v, hv, tokenOf_toNat v, exec_of_combo rfl hv⟩
  case seven =>
    rintro rfl
    exact ⟨_, exec_of_seven rfl s, rfl, rfl, rfl⟩

/-- Settles O17: the three cases of `jnz`, one lemma each. -/
theorem jnzBranchesOnA : Obligations.JnzBranchesOnA := fun x _ =>
  ⟨rfl, exec_jnz_of_zero x, exec_jnz_of_lt, exec_jnz_of_le⟩

/-! ### Which instructions raise `InvalidOperand` -/

/-- From a state without a fault, an instruction leaves an `InvalidOperand` record exactly when it is
a combo instruction with operand 7. -/
theorem exec_invalidOperand_iff {i : Instr} {s t : State} (hs : s.fault = none)
    (h : exec i s = .next t) :
    (∃ r, t.fault = some r ∧ r.kind = .invalidOperand) ↔ comboOperand i = some .seven := by
  refine ⟨?raised, fun hi => ?raises⟩
  case raises =>
    rw [eq_takeFault_of_seven h hi]
    exact ⟨_, rfl, rfl⟩
  case raised =>
    rintro ⟨r, hr, hkind⟩
    obtain ⟨v, -, -, rfl⟩ | ⟨x, -, -, -, rfl⟩ | ⟨x, -, -, -, rfl⟩ | ⟨hseven, -⟩ := exec_cases h
    · simp [hs] at hr
    · simp [hs] at hr
    · cases hr
      cases hkind
    · exact hseven

/-- Settles O6: the words by `decodePair_wellFormed_eq_false_iff`, the record by
`exec_invalidOperand_iff`. -/
theorem illegalWordsAreComboSeven : Obligations.IllegalWordsAreComboSeven := fun op x _ _ hs h =>
  ⟨decodePair_wellFormed_eq_false_iff op x,
    (exec_invalidOperand_iff hs h).trans (wellFormed_eq_false_iff _).symm⟩

/-- Settles O29: the five instructions take the fault, the three others have no combo operand. -/
theorem invalidOperandIsComboSeven : Obligations.InvalidOperandIsComboSeven := by
  refine fun s => ⟨?raise, ?never⟩
  case raise =>
    intro i hi
    have hseven : comboOperand i = some .seven := by
      obtain rfl | rfl | rfl | rfl | rfl := hi <;> rfl
    exact ⟨_, exec_of_seven hseven s, rfl⟩
  case never =>
    intro i x t r hs hi h hr hkind
    have hnone : comboOperand i = none := by
      obtain rfl | rfl | rfl := hi <;> rfl
    have hseven := (exec_invalidOperand_iff hs h).1 ⟨r, hr, hkind⟩
    exact absurd (hnone.symm.trans hseven) nofun

end Sys2Proof.Machine
end

section
/-! SUPPORT. What each instruction leaves alone (spec/40_step_cycle.md R45, R46), and that it reads
nothing outside the read columns of R12's table (spec/10_state.md). -/

namespace Sys2Proof.Machine

/-! ### Frames -/

/-- A legal operand is not 7, seen from the instruction. -/
theorem comboOperand_ne_seven {i : Instr} {x : Combo} (hi : comboOperand i = some x)
    (hx : x ≠ .seven) : comboOperand i ≠ some .seven :=
  fun h => hx (Option.some.inj (hi.symm.trans h))

theorem readCell_exec {i : Instr} {s t : State} (h : exec i s = .next t) (a : Nat) :
    readCell t.prog a = readCell s.prog a := by
  rw [exec_prog h]

/-- What the frames of the combo instructions say of the fault record. -/
theorem exec_fault_of_combo {i : Instr} {x : Combo} {s t : State} (h : exec i s = .next t)
    (hi : comboOperand i = some x) (hx : x ≠ .seven) : t.fault = s.fault := by
  refine exec_fault_of_legal h (fun y hy => ?_) (comboOperand_ne_seven hi hx)
  subst hy
  cases hi

/-- What the frames of the combo instructions say of operand 7. -/
theorem exec_seven_keeps {i : Instr} {s t : State} (h : exec i s = .next t)
    (hi : comboOperand i = some .seven) (r : Reg) :
    t.reg r = s.reg r ∧ t.out = s.out ∧ t.ip = s.ip := by
  rw [eq_takeFault_of_seven h hi]
  exact ⟨State.reg_takeFault s _ r, rfl, rfl⟩

/-- The frame of a combo instruction other than `out`: its writes stay in its write column, and
operand 7 leaves its destination `dst` and `ip` alone too. -/
theorem exec_combo_frame {i : Instr} {x : Combo} {s t : State} (h : exec i s = .next t)
    (hi : comboOperand i = some x) (hout : ∀ y, i ≠ .out y) {q q' : Reg} (hq : q ∉ instrWrites i)
    (hq' : q' ∉ instrWrites i) (dst : Reg) :
    t.reg q = s.reg q ∧ t.reg q' = s.reg q' ∧ t.out = s.out ∧ (x ≠ .seven → t.fault = s.fault) ∧
      (x = .seven → t.reg dst = s.reg dst ∧ t.ip = s.ip) ∧
      ∀ a, readCell t.prog a = readCell s.prog a := by
  refine ⟨exec_reg_of_notMem_writes h hq, exec_reg_of_notMem_writes h hq',
    exec_out_of_ne_out h hout, exec_fault_of_combo h hi, ?_, readCell_exec h⟩
  rintro rfl
  obtain ⟨hdst, -, hip⟩ := exec_seven_keeps h hi dst
  exact ⟨hdst, hip⟩

/-- Settles O18: `exec_combo_frame` with the two registers outside each write column. -/
theorem shiftFamilyFrame : Obligations.ShiftFamilyFrame := fun _ _ _ =>
  ⟨fun h => exec_combo_frame h rfl nofun (q := .B) (q' := .C) (by simp [instrWrites])
      (by simp [instrWrites]) .A,
    fun h => exec_combo_frame h rfl nofun (q := .A) (q' := .C) (by simp [instrWrites])
      (by simp [instrWrites]) .B,
    fun h => exec_combo_frame h rfl nofun (q := .A) (q' := .B) (by simp [instrWrites])
      (by simp [instrWrites]) .C⟩

/-- Settles O19: the three instructions write `B` alone and are neither `jnz` nor `out`. -/
theorem bLogicFamilyFrame : Obligations.BLogicFamilyFrame := by
  intro i s t h hi
  have hwrites : instrWrites i = [.B] := by
    obtain ⟨x, rfl⟩ | ⟨x, rfl⟩ | ⟨x, rfl⟩ := hi <;> rfl
  have hout : ∀ y, i ≠ .out y := by
    obtain ⟨x, rfl⟩ | ⟨x, rfl⟩ | ⟨x, rfl⟩ := hi <;> exact nofun
  have hjnz : ∀ y, i ≠ .jnz y := by
    obtain ⟨x, rfl⟩ | ⟨x, rfl⟩ | ⟨x, rfl⟩ := hi <;> exact nofun
  have hlegal (hne : i ≠ .bst .seven) : comboOperand i ≠ some .seven := by
    obtain ⟨x, rfl⟩ | ⟨x, rfl⟩ | ⟨x, rfl⟩ := hi
    · exact nofun
    · exact comboOperand_ne_seven rfl fun hx => hne (congrArg Instr.bst hx)
    · exact nofun
  refine ⟨exec_reg_of_notMem_writes h (r := .A) (by simp [hwrites]),
    exec_reg_of_notMem_writes h (r := .C) (by simp [hwrites]), exec_out_of_ne_out h hout,
    fun hne => exec_fault_of_legal h hjnz (hlegal hne), ?_, readCell_exec h⟩
  rintro rfl
  obtain ⟨hB, -, hip⟩ := exec_seven_keeps h rfl .B
  exact ⟨hB, hip⟩

/-- Settles O20: the write column of `jnz` is empty, its three cases give the record and `ip`. -/
theorem jnzFrame : Obligations.JnzFrame := by
  intro x s t h
  have hreg (r : Reg) : t.reg r = s.reg r := exec_reg_of_notMem_writes h (by simp [instrWrites])
  refine ⟨hreg .A, hreg .B, hreg .C, exec_out_of_ne_out h nofun, ?record, ?ip, readCell_exec h⟩
  case record =>
    intro hs
    obtain ⟨-, rfl⟩ | ⟨ha, hx, -⟩ | ⟨-, -, rfl⟩ := execJnz_cases h
    · rfl
    · exact absurd hs (not_or_intro ha hx.not_gt)
    · rfl
  case ip =>
    intro ha hx
    rw [Host.Outcome.next.inj (h.symm.trans (exec_jnz_of_le ha hx)), State.takeFault_ip]

/-- Settles O21: `out` has an empty write column, and the two lemmas about the operand. -/
theorem outFrame : Obligations.OutFrame := by
  intro x s t h
  have hreg (r : Reg) : t.reg r = s.reg r := exec_reg_of_notMem_writes h (by simp [instrWrites])
  refine ⟨hreg .A, hreg .B, hreg .C, exec_fault_of_combo h rfl, ?_, readCell_exec h⟩
  rintro rfl
  exact (exec_seven_keeps h rfl .A).2

/-- Settles O23, by the four ways an instruction can go: only a taken `jnz` does not advance, and
the last two leave a fault. -/
theorem defaultAdvanceIsTwoCells : Obligations.DefaultAdvanceIsTwoCells := by
  intro i s t hs h ht
  obtain ⟨v, -, hj, rfl⟩ | ⟨x, rfl, ha, -, rfl⟩ | ⟨x, -, -, -, rfl⟩ | ⟨-, rfl⟩ := exec_cases h
  · exact ⟨fun _ => by simp, fun x hi ha => absurd (hj x hi) ha⟩
  · refine ⟨fun hz => absurd (hz x rfl) ha, fun y hy _ => ?_⟩
    cases hy
    rfl
  · cases ht
  · cases ht

end Sys2Proof.Machine
end

section
/-! SUPPORT. A register that R12's table does not name as read has no influence on an instruction
(spec/10_state.md R12). -/

namespace Sys2Proof.Machine

/-! ### Register writes and the other operations -/

section
variable (s : State) (r : Reg) (v : Nat)

@[simp] theorem State.setReg_setReg_same (u : Nat) : (s.setReg r v).setReg r u = s.setReg r u := by
  cases r <;> rfl

theorem State.setReg_setReg_comm {q : Reg} (h : r ≠ q) (u : Nat) :
    (s.setReg r v).setReg q u = (s.setReg q u).setReg r v := by
  cases r <;> cases q <;> simp [State.setReg] at h ⊢

theorem State.advance_setReg : (s.setReg r v).advance = s.advance.setReg r v := by
  cases r <;> rfl

theorem State.jumpTo_setReg (a : Nat) : (s.setReg r v).jumpTo a = (s.jumpTo a).setReg r v := by
  cases r <;> rfl

theorem State.takeFault_setReg (c : FaultCause) :
    (s.setReg r v).takeFault c = (s.takeFault c).setReg r v := by
  cases r <;> rfl

theorem State.appendToken_setReg (tok : Token) :
    (s.setReg r v).appendToken tok = (s.appendToken tok).setReg r v := by
  cases r <;> rfl

@[simp] theorem State.setReg_progLen : (s.setReg r v).progLen = s.progLen := by
  cases r <;> rfl

end

/-! ### Reads -/

section
variable {i : Instr} {r : Reg}

/-- Another value in a register the operand does not name leaves its value alone. -/
theorem combo_setReg {x : Combo} (hr : r ∉ comboReads x) (s : State) (v : Nat) :
    combo x (s.setReg r v) = combo x s := by
  cases x with
  | lit k => rfl
  | seven => rfl
  | reg q => exact congrArg some (State.reg_setReg_of_ne s v (List.ne_of_not_mem_cons hr).symm)

/-- The registers of the operand stand in the read column. -/
theorem comboReads_subset_instrReads {x : Combo} (hi : comboOperand i = some x) :
    comboReads x ⊆ instrReads i := by
  cases i with
  | adv y => cases hi; exact List.subset_cons_self _ _
  | bdv y => cases hi; exact List.subset_cons_self _ _
  | cdv y => cases hi; exact List.subset_cons_self _ _
  | bst y => cases hi; exact List.Subset.refl _
  | out y => cases hi; exact List.Subset.refl _
  | bxl y => cases hi
  | jnz y => cases hi
  | bxc y => cases hi

/-- The registers that are read keep their value. -/
theorem reg_setReg_of_notMem_reads (hr : r ∉ instrReads i) {q : Reg} (hq : q ∈ instrReads i)
    (s : State) (v : Nat) : (s.setReg r v).reg q = s.reg q :=
  State.reg_setReg_of_ne s v (ne_of_mem_of_not_mem hq hr)

/-- An instruction that writes a register without reading it makes the old value disappear. -/
theorem effect_setReg_of_mem_writes (hr : r ∉ instrReads i) (hw : r ∈ instrWrites i) (u v : Nat)
    (s : State) : effect i u (s.setReg r v) = effect i u s := by
  cases i with
  | jnz x => cases hw
  | out x => cases hw
  | bst x => cases List.mem_singleton.1 hw; rfl
  | bdv x => cases List.mem_singleton.1 hw; rfl
  | cdv x => cases List.mem_singleton.1 hw; rfl
  | adv x => exact absurd (List.mem_singleton.1 hw) (List.ne_of_not_mem_cons hr)
  | bxl x => exact absurd (List.mem_singleton.1 hw) (List.ne_of_not_mem_cons hr)
  | bxc x => exact absurd (List.mem_singleton.1 hw) (List.ne_of_not_mem_cons hr)

/-- Writing the same value to another register first or last is the same. -/
theorem setReg_swap {q : Reg} (h : r ∉ [q]) {u u' : Nat} (hu : u' = u) (s : State) (v : Nat) :
    (s.setReg r v).setReg q u' = (s.setReg q u).setReg r v := by
  rw [hu, State.setReg_setReg_comm s r v (List.ne_of_not_mem_cons h)]

/-- The value of a register that an instruction neither reads nor writes is carried along. -/
theorem effect_setReg_of_notMem_writes (hr : r ∉ instrReads i) (hw : r ∉ instrWrites i) (u v : Nat)
    (s : State) : effect i u (s.setReg r v) = (effect i u s).setReg r v := by
  have hread {q : Reg} (hq : q ∈ instrReads i) : (s.setReg r v).reg q = s.reg q :=
    reg_setReg_of_notMem_reads hr hq s v
  have hA : Reg.A ∈ instrReads i → shiftRight (s.setReg r v).A u = shiftRight s.A u :=
    fun hq => congrArg (shiftRight · u) (hread hq)
  cases i with
  | jnz x => rfl
  | out x => exact State.appendToken_setReg s r v _
  | bst x => exact setReg_swap hw rfl s v
  | adv x => exact setReg_swap hw (hA List.mem_cons_self) s v
  | bdv x => exact setReg_swap hw (hA List.mem_cons_self) s v
  | cdv x => exact setReg_swap hw (hA List.mem_cons_self) s v
  | bxl x => exact setReg_swap hw (congrArg (xorNat · x.toNat) (hread List.mem_cons_self)) s v
  | bxc x =>
    have hB : (s.setReg r v).B = s.B := hread List.mem_cons_self
    have hC : (s.setReg r v).C = s.C := hread (List.mem_cons_of_mem _ List.mem_cons_self)
    exact setReg_swap hw (congrArg₂ xorNat hB hC) s v

/-- With another value in a register that is not read, an instruction goes the same way: the value
disappears when the instruction completes and writes the register, and stays otherwise. -/
theorem exec_setReg_of_notMem_reads (hr : r ∉ instrReads i) {s t : State} (v : Nat)
    (h : exec i s = .next t) :
    ∃ t', exec i (s.setReg r v) = .next t' ∧
      (r ∈ instrWrites i → i.wellFormed = true → t' = t) ∧
      (r ∉ instrWrites i ∨ i.wellFormed = false → t' = t.setReg r v) := by
  obtain ⟨u, hu, hj, rfl⟩ | ⟨x, rfl, ha, hx, rfl⟩ | ⟨x, rfl, ha, hx, rfl⟩ | ⟨hseven, rfl⟩ :=
    exec_cases h
  · have hu' (x : Combo) (hx : comboOperand i = some x) : combo x (s.setReg r v) = some u :=
      (combo_setReg (fun hm => hr (comboReads_subset_instrReads hx hm)) s v).trans (hu x hx)
    have hj' (x : Cell) (hx : i = .jnz x) : (s.setReg r v).A = 0 := by
      have hA : Reg.A ∈ instrReads i := hx ▸ List.mem_cons_self
      exact (reg_setReg_of_notMem_reads hr hA s v).trans (hj x hx)
    refine ⟨_, exec_of_completes hu' hj', fun hw _ => ?_, fun hw => ?_⟩
    · rw [effect_setReg_of_mem_writes hr hw]
    · have hlegal : i.wellFormed ≠ false := fun hf =>
        nomatch hu _ ((wellFormed_eq_false_iff i).1 hf)
      rw [effect_setReg_of_notMem_writes hr (hw.resolve_right hlegal), State.advance_setReg]
  · have hA : (s.setReg r v).A = s.A := reg_setReg_of_notMem_reads hr List.mem_cons_self s v
    exact ⟨_, exec_jnz_of_lt (hA.trans_ne ha) (by simpa using hx), nofun, fun _ =>
      State.jumpTo_setReg s r v _⟩
  · have hA : (s.setReg r v).A = s.A := reg_setReg_of_notMem_reads hr List.mem_cons_self s v
    exact ⟨_, exec_jnz_of_le (hA.trans_ne ha) (by simpa using hx), nofun, fun _ =>
      State.takeFault_setReg s r v _⟩
  · refine ⟨_, exec_of_seven hseven _, fun _ hwf => ?_, fun _ => State.takeFault_setReg s r v _⟩
    exact absurd ((wellFormed_eq_false_iff i).2 hseven) (ne_of_eq_of_ne hwf nofun)

end

/-- Settles O22: the write column by `exec_reg_of_notMem_writes` and `exec_out_of_ne_out`, the read
columns by `exec_setReg_of_notMem_reads`. -/
theorem registersReadAndWritten : Obligations.RegistersReadAndWritten := by
  refine fun i s r v =>
    ⟨fun t h => ⟨exec_reg_of_notMem_writes h, exec_out_of_ne_out h⟩, fun hr => ?_⟩
  obtain ⟨t, h⟩ := exists_exec_eq_next i s
  obtain ⟨t', h'⟩ := exec_setReg_of_notMem_reads hr v h
  exact ⟨t, t', h, h'⟩

end Sys2Proof.Machine
end

section
/-! SUPPORT. What a step does in each status of spec/10_state.md R16, and when it faults
(spec/40_step_cycle.md R41 to R43; spec/60_exceptions.md R62 to R69). -/

namespace Sys2Proof.Machine

/-! ### The status of a state -/

/-- A state runs, is halted, or holds a record (R16). -/
theorem status_cases (s : State) : s.running = true ∨ s.halted = true ∨ ∃ r, s.fault = some r := by
  rw [s.running_iff, s.halted_iff]
  cases s.fault with
  | some r => exact .inr (.inr ⟨r, rfl⟩)
  | none => exact (lt_or_ge s.ip s.progLen).imp (⟨rfl, ·⟩) fun h => .inl ⟨rfl, h⟩

/-- Settles O27: a record decides, and without one the place of `ip` does. -/
theorem exactlyOneStatusHolds : Obligations.ExactlyOneStatusHolds := by
  intro s
  cases hf : s.fault with
  | some r => exact .inr (.inr (by simp [State.running, State.halted, State.faulted, hf]))
  | none =>
    rcases lt_or_ge s.ip s.progLen with hip | hip
    · exact .inl (by simp [State.running, State.halted, State.faulted, hf, hip])
    · exact .inr (.inl (by simp [State.running, State.halted, State.faulted, hf, hip]))

/-! ### The step in each status -/

section
variable {s : State}

theorem step_of_fault {r : FaultRecord} (hf : s.fault = some r) : step s = .fault (.failed r) := by
  simp [step, cycle, hf]

theorem step_of_halted (h : s.halted = true) : step s = .fault .halted := by
  obtain ⟨hf, hip⟩ := s.halted_iff.1 h
  simp [step, cycle, hf, hip]

/-- With one cell left the step takes the fault of an incomplete pair (R63). -/
theorem step_of_incompletePair (hf : s.fault = none) (hip : s.ip + 1 = s.progLen) :
    step s = .next (s.takeFault .incompletePair) := by
  have hlt : ¬ s.progLen ≤ s.ip := by omega
  have hfetch : fetch s = none := (fetch_eq_none_iff s).2 (by rw [← s.progLen_eq]; omega)
  simp [step, cycle, hf, hlt, hfetch]

/-- An existing cell stands below `L` (R20). -/
theorem lt_progLen_of_readCell {a : Nat} {c : Cell} (h : readCell s.prog a = some c) :
    a < s.progLen :=
  (readCell_isSome_iff s.prog a).1 (Option.isSome_iff_exists.2 ⟨c, h⟩)

/-- With a whole pair at `ip` the step is the effect of the instruction it decodes to (R44). -/
theorem step_of_pair {op x : Cell} (hf : s.fault = none) (hop : readCell s.prog s.ip = some op)
    (hx : readCell s.prog (s.ip + 1) = some x) : step s = exec (decodePair op x) s := by
  have hlt : ¬ s.progLen ≤ s.ip := (lt_progLen_of_readCell hop).not_ge
  have hfetch : fetch s = some (op, x) := (fetch_eq_some_iff s op x).2 ⟨hop, hx⟩
  simp [step, cycle, hf, hlt, hfetch]

/-- A running state has a next state: its pair is whole, or one cell is left. -/
theorem exists_step_eq_next (h : s.running = true) : ∃ t, step s = .next t := by
  obtain ⟨hf, hip⟩ := s.running_iff.1 h
  rcases eq_or_ne (s.ip + 1) s.progLen with hlast | hpair
  · exact ⟨_, step_of_incompletePair hf hlast⟩
  · have hsecond : s.ip + 1 < s.progLen := by omega
    obtain ⟨op, hop⟩ := Option.isSome_iff_exists.1 ((readCell_isSome_iff s.prog s.ip).2 hip)
    obtain ⟨x, hx⟩ := Option.isSome_iff_exists.1 ((readCell_isSome_iff s.prog (s.ip + 1)).2 hsecond)
    rw [step_of_pair hf hop hx]
    exact exists_exec_eq_next _ s

theorem running_of_step {t : State} (h : step s = .next t) : s.running = true := by
  obtain ⟨hf, hip, -⟩ := step_cases h
  exact s.running_iff.2 ⟨hf, hip⟩

end

/-- Settles O24: `step_of_pair`. -/
theorem stepRunsTheDecodedInstruction : Obligations.StepRunsTheDecodedInstruction :=
  fun _ _ _ => step_of_pair

/-- Settles O26: the three statuses are all there is, and each has its own kind of answer. -/
theorem onlyARunningStateSteps : Obligations.OnlyARunningStateSteps := by
  refine fun s => ⟨⟨exists_step_eq_next, fun ⟨_, h⟩ => running_of_step h⟩,
    ⟨step_of_halted, fun h => ?halted⟩, fun r => ⟨step_of_fault, fun h => ?failed⟩⟩
  case halted =>
    obtain hrun | hhalt | ⟨r, hr⟩ := status_cases s
    · obtain ⟨t, ht⟩ := exists_step_eq_next hrun
      cases h.symm.trans ht
    · exact hhalt
    · cases h.symm.trans (step_of_fault hr)
  case failed =>
    obtain hrun | hhalt | ⟨q, hq⟩ := status_cases s
    · obtain ⟨t, ht⟩ := exists_step_eq_next hrun
      cases h.symm.trans ht
    · cases h.symm.trans (step_of_halted hhalt)
    · cases h.symm.trans (step_of_fault hq)
      exact hq

/-- Settles O28: one cell is left, so `step_of_incompletePair`. -/
theorem incompletePairFaults : Obligations.IncompletePairFaults := fun s hf hlt hle =>
  ⟨_, step_of_incompletePair hf (by rw [s.progLen_eq]; omega), rfl⟩

/-- Settles O33: the record stands in the state the run starts from. -/
theorem faultedRunStaysFaulted : Obligations.FaultedRunStaysFaulted := fun _ _ _ _ _ hr =>
  core_run_succ_of_fault (step_of_fault hr)

/-! ### A step faults exactly on the condition of its record -/

/-- The record that fault entry writes for a cause (R66). -/
def recordOf (s : State) (c : FaultCause) : FaultRecord := ⟨kindOfCause c, s.ip, c⟩

theorem State.takeFault_eq (s : State) (c : FaultCause) :
    s.takeFault c = { s with fault := some (recordOf s c) } := rfl

/-- A record that matches a state is the one fault entry writes there for its cause. -/
theorem eq_recordOf_of_recordMatches {s : State} {r : FaultRecord} (h : RecordMatches s r) :
    r = recordOf s r.cause := by
  obtain ⟨kind, loc, cause⟩ := r
  obtain ⟨hloc, hkind, -⟩ := h
  exact congrArg₂ (FaultRecord.mk · · cause) hkind hloc

/-- The opcode cell of a `jnz`. -/
theorem eq_three_of_decodePair_eq_jnz {op x y : Cell} (h : decodePair op x = .jnz y) :
    op = 3 ∧ x = y := by
  revert op x y; decide

/-- The cells of a combo instruction with operand 7. -/
theorem cells_of_comboOperand_seven {op x : Cell}
    (h : comboOperand (decodePair op x) = some .seven) :
    x = 7 ∧ (op = 0 ∨ op = 2 ∨ op = 5 ∨ op = 6 ∨ op = 7) :=
  (decodePair_wellFormed_eq_false_iff op x).1 ((wellFormed_eq_false_iff _).2 h)

/-- A step completes without a fault, or takes one whose condition holds. -/
theorem step_fault_cases {s t : State} (h : step s = .next t) :
    t.fault = none ∨ ∃ c, t = s.takeFault c ∧ RecordMatches s (recordOf s c) := by
  obtain ⟨hf, -, ⟨hlast, rfl⟩ | ⟨op, x, hop, hx, hexec⟩⟩ := step_cases h
  · exact .inr ⟨_, rfl, rfl, rfl, hlast⟩
  · obtain ⟨v, -, -, rfl⟩ | ⟨y, -, -, -, rfl⟩ | ⟨y, hi, ha, hy, rfl⟩ | ⟨hseven, rfl⟩ :=
      exec_cases hexec
    · exact .inl ((effect_fault _ v s).trans hf)
    · exact .inl hf
    · obtain ⟨rfl, rfl⟩ := eq_three_of_decodePair_eq_jnz hi
      exact .inr ⟨_, rfl, rfl, rfl, hop, hx, ha, hy⟩
    · obtain ⟨rfl, hcombo⟩ := cells_of_comboOperand_seven hseven
      exact .inr ⟨_, rfl, rfl, rfl, ⟨op, hop, hcombo⟩, hx⟩

/-- Where the condition of a cause holds, the step takes its fault. -/
theorem step_of_recordMatches {s : State} {r : FaultRecord} (hf : s.fault = none)
    (h : RecordMatches s r) : step s = .next { s with fault := some r } := by
  have hr : r = recordOf s r.cause := eq_recordOf_of_recordMatches h
  rw [hr, ← State.takeFault_eq]
  obtain ⟨-, -, hcond⟩ := h
  cases hc : r.cause with
  | incompletePair =>
    simp only [hc] at hcond
    exact step_of_incompletePair hf hcond
  | jumpOutOfRange x =>
    simp only [hc] at hcond
    obtain ⟨hop, hx, ha, hle⟩ := hcond
    exact (step_of_pair hf hop hx).trans (exec_jnz_of_le ha hle)
  | combo7 =>
    simp only [hc] at hcond
    obtain ⟨⟨op, hop, hcombo⟩, hx⟩ := hcond
    exact (step_of_pair hf hop hx).trans (exec_of_seven (comboOperand_decodePair_seven hcombo) s)

/-- Settles O30: by `step_fault_cases` a record in the next state comes from fault entry. -/
theorem faultingStepChangesOnlyTheRecord : Obligations.FaultingStepChangesOnlyTheRecord := by
  intro s t r h hr
  obtain hnone | ⟨c, rfl, -⟩ := step_fault_cases h
  · cases hnone.symm.trans hr
  · cases hr
    exact ⟨rfl, rfl, rfl⟩

/-- Settles O31: `step_fault_cases` in one direction, `step_of_recordMatches` in the other. -/
theorem faultIsRecordedExactlyOnItsCondition :
    Obligations.FaultIsRecordedExactlyOnItsCondition := by
  refine fun s t r h => ⟨fun hr => ?recorded, fun hmatch => ?condition⟩
  case recorded =>
    obtain hnone | ⟨c, rfl, hmatch⟩ := step_fault_cases h
    · cases hnone.symm.trans hr
    · cases hr
      exact hmatch
  case condition =>
    obtain ⟨hf, -⟩ := step_cases h
    rw [Host.Outcome.next.inj (h.symm.trans (step_of_recordMatches hf hmatch))]

/-- The conditions of a record do not look at the recorded fault. -/
theorem recordMatches_withFault_iff (s : State) (f : Option FaultRecord) (r : FaultRecord) :
    RecordMatches { s with fault := f } r ↔ RecordMatches s r := Iff.rfl

/-- Settles O32: the step from the state without a record has one result, which holds both. -/
theorem faultConditionsExcludeEachOther : Obligations.FaultConditionsExcludeEachOther := by
  intro s r q hr hq
  have hstep {p : FaultRecord} (hp : RecordMatches s p) :
      step { s with fault := none } = .next { s with fault := some p } :=
    step_of_recordMatches rfl ((recordMatches_withFault_iff s none p).2 hp)
  have hsame := Host.Outcome.next.inj ((hstep hr).symm.trans (hstep hq))
  exact Option.some.inj (congrArg State.fault hsame)

/-! ### A placed word is the one that runs (assumption 6) -/

/-- A packed word fits in the table's 8 bits and gives back its two cells (R30). -/
theorem unpackWord_packWord_mod (op x : Cell) :
    unpackWord (packWord op x % 2 ^ 8) = some (op, x) := by
  rw [Nat.mod_eq_of_lt ((packWord_lt op x).trans (by decide)), unpackWord_packWord]

/-- The table decoder reads the instruction of a packed word. -/
theorem decodeTableWord_packWord (op x : Cell) :
    decodeTableWord 8 (packWord op x) = some (decodePair op x) := by
  unfold decodeTableWord
  rw [unpackWord_packWord_mod]
  rfl

/-- Placing a packed word puts its two cells at `ip` and `ip + 1`. -/
theorem withFetchWord_packWord (s : State) (op x : Cell) :
    s.withFetchWord 8 (packWord op x) =
      { s with fault := none, prog := placeCell (placeCell s.prog s.ip op) (s.ip + 1) x } := by
  unfold State.withFetchWord placeFetchWord
  rw [unpackWord_packWord_mod]

/-- The cell placed first is still there after the next one. -/
theorem readCell_placeCell_pair_first (P : Memory) (a : Nat) (op x : Cell) :
    readCell (placeCell (placeCell P a op) (a + 1) x) a = some op := by
  rw [readCell_placeCell_of_ne _ x (Nat.succ_ne_self a).symm (by rw [placeCell_length]; omega),
    readCell_placeCell_same]

/-- A pair placed at `a` leaves the existing cells below `a` alone. -/
theorem readCell_placeCell_pair_below (P : Memory) {a b : Nat} (op x : Cell) (hb : b < a)
    (hlen : b < P.length) :
    readCell (placeCell (placeCell P a op) (a + 1) x) b = readCell P b := by
  rw [readCell_placeCell_of_ne _ x (by omega) (by rw [placeCell_length]; omega),
    readCell_placeCell_of_ne _ op hb.ne hlen]

/-- Settles O25: the two placed cells are read back, so `step_of_pair` runs their instruction. -/
theorem placedWordIsTheOneThatRuns : Obligations.PlacedWordIsTheOneThatRuns := by
  intro s op x
  refine ⟨decodeTableWord_packWord op x, ?_⟩
  rw [withFetchWord_packWord]
  exact ⟨step_of_pair rfl (readCell_placeCell_pair_first s.prog s.ip op x)
      (readCell_placeCell_same _ _ x),
    rfl, fun r => by cases r <;> rfl, rfl,
    fun _ => readCell_placeCell_pair_below s.prog op x⟩

end Sys2Proof.Machine
end

section
/-! SUPPORT. What every step and every run keeps: the invariant (spec/10_state.md R13,
spec/60_exceptions.md R66, R68), the width of the registers (R11) and the program (R15). -/

namespace Sys2Proof.Machine

/-! ### The invariant -/

/-- The advance over a whole pair stays in bounds. -/
theorem ipInBounds_effect_advance (i : Instr) (v : Nat) {s : State} (h : s.ip + 1 < s.progLen) :
    IpInBounds (effect i v s).advance := by
  simp only [IpInBounds, State.progLen_eq, State.advance_ip, State.advance_prog, effect_ip,
    effect_prog]
  exact h

/-- No step moves `ip` out of bounds: the pair it advances over is whole, and a jump stays below `L`. -/
theorem step_keeps_ipInBounds {s t : State} (h : step s = .next t) : IpInBounds t := by
  obtain ⟨-, hip, ⟨-, rfl⟩ | ⟨op, x, -, hx, hexec⟩⟩ := step_cases h
  · exact hip.le
  · obtain ⟨v, -, -, rfl⟩ | ⟨y, -, -, hy, rfl⟩ | ⟨y, -, -, -, rfl⟩ | ⟨-, rfl⟩ := exec_cases hexec
    · exact ipInBounds_effect_advance _ v (lt_progLen_of_readCell hx)
    · exact hy.le
    · exact hip.le
    · exact hip.le

/-- Settles O34: `ip` by `step_keeps_ipInBounds`; a record is one that the step took on its condition,
and fault entry changes nothing the condition looks at. -/
theorem stepKeepsTheInvariant : Obligations.StepKeepsTheInvariant := by
  refine fun s t _ h => ⟨step_keeps_ipInBounds h, fun r hr => ?_⟩
  obtain hnone | ⟨c, rfl, hmatch⟩ := step_fault_cases h
  · cases hnone.symm.trans hr
  · cases hr
    exact (recordMatches_withFault_iff s _ _).2 hmatch

theorem launch_inv (l : Launch) : Inv (launch l) := ⟨Nat.zero_le _, nofun⟩

/-- Settles O35: a start state has `ip` 0 and no record. -/
theorem startStatesHaveTheInvariant : Obligations.StartStatesHaveTheInvariant :=
  ⟨launch_inv, reset_eq_launch ▸ launch_inv _⟩

/-! ### The width of the register file -/

section
variable {w : Nat} {s t : State}

theorem fitsWidth_reg (hs : FitsWidth w s) (r : Reg) : s.reg r < 2 ^ w := by
  obtain ⟨hA, hB, hC⟩ := hs
  cases r with
  | A => exact hA
  | B => exact hB
  | C => exact hC

/-- A write of a value that fits keeps the width. -/
theorem fitsWidth_setReg (hs : FitsWidth w s) {v : Nat} (hv : v < 2 ^ w) (r : Reg) :
    FitsWidth w (s.setReg r v) := by
  obtain ⟨hA, hB, hC⟩ := hs
  cases r with
  | A => exact ⟨hv, hB, hC⟩
  | B => exact ⟨hA, hv, hC⟩
  | C => exact ⟨hA, hB, hv⟩

theorem shiftRight_lt_two_pow (hs : FitsWidth w s) (n : Nat) : shiftRight s.A n < 2 ^ w :=
  (shiftRight_le s.A n).trans_lt (fitsWidth_reg hs .A)

/-- Every value an instruction writes fits: a shift of `A`, three bits, or an exclusive or (R11). -/
theorem fitsWidth_effect (hw : 3 ≤ w) (hs : FitsWidth w s) (i : Instr) (v : Nat) :
    FitsWidth w (effect i v s) := by
  have hheight : 8 ≤ 2 ^ w := Nat.pow_le_pow_right (n := 2) (by decide) hw
  have hB : s.B < 2 ^ w := fitsWidth_reg hs .B
  cases i with
  | adv x => exact fitsWidth_setReg hs (shiftRight_lt_two_pow hs v) .A
  | bdv x => exact fitsWidth_setReg hs (shiftRight_lt_two_pow hs v) .B
  | cdv x => exact fitsWidth_setReg hs (shiftRight_lt_two_pow hs v) .C
  | bxl x => exact fitsWidth_setReg hs (xorNat_lt_two_pow hB (x.isLt.trans_le hheight)) .B
  | bst x => exact fitsWidth_setReg hs ((mod8_lt v).trans_le hheight) .B
  | bxc x => exact fitsWidth_setReg hs (xorNat_lt_two_pow hB (fitsWidth_reg hs .C)) .B
  | jnz x => exact hs
  | out x => exact hs

/-- Registers that fit in `w` bits still fit after a step. -/
theorem step_keeps_fitsWidth (hw : 3 ≤ w) (hs : FitsWidth w s) (h : step s = .next t) :
    FitsWidth w t := by
  obtain ⟨-, -, ⟨-, rfl⟩ | ⟨op, x, -, -, hexec⟩⟩ := step_cases h
  · exact hs
  · obtain ⟨v, -, -, rfl⟩ | ⟨y, -, -, -, rfl⟩ | ⟨y, -, -, -, rfl⟩ | ⟨-, rfl⟩ := exec_cases hexec
    · exact fitsWidth_effect hw hs _ v
    · exact hs
    · exact hs
    · exact hs

/-- `W` of R11 is the least width of at least 3 bits in which the registers fit. -/
theorem regFileWidth_le_iff : regFileWidth s ≤ w ↔ 3 ≤ w ∧ FitsWidth w s := by
  simp only [regFileWidth, max_le_iff, bitLength_le_iff, FitsWidth]
  tauto

end

/-- Settles O36: the registers fit in their own width, and `step_keeps_fitsWidth` keeps that. -/
theorem registerFileNeverWidens : Obligations.RegisterFileNeverWidens := by
  intro s t h
  obtain ⟨hw, hs⟩ := regFileWidth_le_iff.1 (le_refl (regFileWidth s))
  exact regFileWidth_le_iff.2 ⟨hw, step_keeps_fitsWidth hw hs h⟩

/-- Settles O37: `step_keeps_fitsWidth` over the steps of a run. -/
theorem fixedWidthRunNeverOverflows : Obligations.FixedWidthRunNeverOverflows :=
  fun _ k s t hw => core_run_keeps (fun _ _ => step_keeps_fitsWidth hw) k s t

/-! ### The program -/

theorem step_prog {s t : State} (h : step s = .next t) : t.prog = s.prog := by
  obtain ⟨-, -, ⟨-, rfl⟩ | ⟨op, x, -, -, hexec⟩⟩ := step_cases h
  · rfl
  · exact exec_prog hexec

theorem core_run_prog {k : Nat} {s t : State} (h : Host.Core.run Sys2Proof.core k s = .next t) :
    t.prog = s.prog :=
  core_run_keeps (Q := fun u => u.prog = s.prog) (fun _ _ hu hstep => (step_prog hstep).trans hu)
    k s t rfl h

/-- Settles O39: a run keeps the whole store. -/
theorem runNeverChangesTheProgram : Obligations.RunNeverChangesTheProgram := by
  intro k s t h
  rw [core_run_prog h]
  exact ⟨rfl, fun _ => rfl⟩

end Sys2Proof.Machine
end

section
/-! SUPPORT. A program that passes the checks recommended to the host never faults
(spec/70_reset_and_hazards.md R80, R88). -/

namespace Sys2Proof.Machine

/-! ### What the checks say of the program -/

/-- Only a sequence of whole pairs passes. -/
theorem even_length_of_hostChecksPairs {L : Nat} :
    ∀ {cells : List Cell}, hostChecksPairs L cells = true → cells.length % 2 = 0
  | [], _ => rfl
  | op :: x :: rest, h => by
    have hrest := even_length_of_hostChecksPairs (Bool.and_eq_true_iff.1 h).2
    simp only [List.length_cons]
    omega

/-- Every pair at an even cell passes. -/
theorem hostChecksInstr_of_pair {L : Nat} {op x : Cell} :
    ∀ {cells : List Cell} {n : Nat}, hostChecksPairs L cells = true →
      readCell cells (2 * n) = some op → readCell cells (2 * n + 1) = some x →
      hostChecksInstr L (decodePair op x) = true
  | _ :: _ :: _, 0, h, hop, hx => by
    cases hop
    cases hx
    exact (Bool.and_eq_true_iff.1 h).1
  | _ :: _ :: _, n + 1, h, hop, hx =>
    hostChecksInstr_of_pair (n := n) (Bool.and_eq_true_iff.1 h).2 hop hx

/-! ### What the checks say of an instruction -/

theorem jnz_target_of_hostChecksInstr {L : Nat} {x : Cell} (h : hostChecksInstr L (.jnz x) = true) :
    x.toNat % 2 = 0 ∧ x.toNat < L := by
  simpa [hostChecksInstr] using h

theorem wellFormed_of_hostChecksInstr {L : Nat} {i : Instr} (h : hostChecksInstr L i = true) :
    i.wellFormed = true := by
  cases i with
  | jnz x => rfl
  | _ => exact h

/-! ### The invariant of a checked run -/

/-- A state of a run that cannot fault: a checked program, no record, and `ip` at a pair or at the end. -/
def HostSafe (s : State) : Prop :=
  hostChecks s.prog = true ∧ s.fault = none ∧ s.ip % 2 = 0 ∧ IpInBounds s

/-- A checked instruction with its two cells below `L` completes or jumps to an even cell. -/
theorem exec_keeps_hostSafe {i : Instr} {s t : State} (hs : HostSafe s)
    (hpair : s.ip + 1 < s.progLen) (hi : hostChecksInstr s.progLen i = true) (h : exec i s = .next t) : HostSafe t := by
  obtain ⟨hcheck, hf, heven, -⟩ := hs
  obtain ⟨v, -, -, rfl⟩ | ⟨x, rfl, -, hx, rfl⟩ | ⟨x, rfl, -, hx, -⟩ | ⟨hseven, -⟩ := exec_cases h
  · exact ⟨by simpa using hcheck, by simpa using hf, by simpa using heven,
      ipInBounds_effect_advance i v hpair⟩
  · exact ⟨hcheck, hf, (jnz_target_of_hostChecksInstr hi).1, hx.le⟩
  · exact absurd (jnz_target_of_hostChecksInstr hi).2 hx.not_gt
  · have hill : i.wellFormed = false := (wellFormed_eq_false_iff i).2 hseven
    exact absurd ((wellFormed_of_hostChecksInstr hi).symm.trans hill) nofun

/-- A step in a checked run: the length is even, so an even `ip` below `L` has its pair whole, and that
pair was checked. -/
theorem step_keeps_hostSafe (s t : State) (hs : HostSafe s) (h : step s = .next t) :
    HostSafe t := by
  obtain ⟨hcheck, -, heven, -⟩ := id hs
  have hlen : s.progLen % 2 = 0 := even_length_of_hostChecksPairs hcheck
  obtain ⟨-, hlt, ⟨hlast, -⟩ | ⟨op, x, hop, hx, hexec⟩⟩ := step_cases h
  · omega
  · have htwo : s.ip = 2 * (s.ip / 2) := by omega
    rw [htwo] at hop hx
    have hi : hostChecksInstr s.progLen (decodePair op x) = true :=
      hostChecksInstr_of_pair hcheck hop hx
    exact exec_keeps_hostSafe hs (by omega) hi hexec

/-- Settles O40: `step_keeps_hostSafe` over the steps of a run. -/
theorem hostCheckedProgramNeverFaults : Obligations.HostCheckedProgramNeverFaults := by
  intro k s t hcheck hf heven hip h
  obtain ⟨-, hsafe⟩ := core_run_keeps step_keeps_hostSafe k s t ⟨hcheck, hf, heven, hip⟩ h
  exact hsafe

end Sys2Proof.Machine
end

section
/-! SUPPORT. Runs: the hang of a jump to itself (spec/40_step_cycle.md R48, spec/43_jnz.md R57 c), and the
runner with a budget against the steps (R47, R81). -/

namespace Sys2Proof.Machine

/-! ### A jump to itself -/

/-- A state that steps to itself is where every run from it ends. -/
theorem core_run_of_step_self {s : State} (h : step s = .next s) :
    ∀ k, Host.Core.run Sys2Proof.core k s = .next s
  | 0 => rfl
  | k + 1 => (core_run_succ_of_next h).trans (core_run_of_step_self h k)

/-- Settles O41: the taken jump leads to the `ip` it stands at, so the step leads to its own state. -/
theorem jumpToItselfHangs : Obligations.JumpToItselfHangs := by
  intro s x hf ha hop hx htarget
  have hin : x.toNat < s.progLen := htarget ▸ lt_progLen_of_readCell hop
  have hself : s.jumpTo x.toNat = s := by rw [htarget]; rfl
  have hstep : step s = .next s := by
    rw [step_of_pair hf hop hx, decodePair_jnz, exec_jnz_of_lt ha hin, hself]
  have hrun := core_run_of_step_self hstep
  exact ⟨fun k => ⟨s, hrun k, running_of_step hstep⟩, hrun⟩

/-! ### The result of the state a run has got to -/

theorem resultAt_of_running {s : State} (h : s.running = true) : resultAt s = .outOfBudget s := by
  obtain ⟨hf, hip⟩ := s.running_iff.1 h
  simp [resultAt, State.halted, hf, hip]

theorem resultAt_of_halted {s : State} (h : s.halted = true) : resultAt s = .halted s := by
  obtain ⟨hf, -⟩ := s.halted_iff.1 h
  simp [resultAt, hf, h]

theorem resultAt_of_fault {s : State} {r : FaultRecord} (h : s.fault = some r) :
    resultAt s = .failed r := by
  simp [resultAt, h]

theorem halted_of_resultAt {s t : State} (h : resultAt s = .halted t) :
    s = t ∧ s.halted = true := by
  obtain hrun | hhalt | ⟨r, hr⟩ := status_cases s
  · cases (resultAt_of_running hrun).symm.trans h
  · cases (resultAt_of_halted hhalt).symm.trans h
    exact ⟨rfl, hhalt⟩
  · cases (resultAt_of_fault hr).symm.trans h

theorem fault_of_resultAt {s : State} {r : FaultRecord} (h : resultAt s = .failed r) :
    s.fault = some r := by
  obtain hrun | hhalt | ⟨q, hq⟩ := status_cases s
  · cases (resultAt_of_running hrun).symm.trans h
  · cases (resultAt_of_halted hhalt).symm.trans h
  · cases (resultAt_of_fault hq).symm.trans h
    exact hq

/-! ### The runner -/

theorem runWithin_succ_of_next {n : Nat} {s t : State} (h : step s = .next t) :
    runWithin (n + 1) s = runWithin n t := by
  simp [runWithin, h]

/-- A state that is not running ends the run, whatever is left of the budget. -/
theorem runWithin_of_not_running (n : Nat) {s : State} (h : ¬ s.running = true) :
    runWithin n s = resultAt s := by
  cases n with
  | zero => rfl
  | succ n =>
    obtain hhalt | ⟨r, hr⟩ := (status_cases s).resolve_left h
    · simp [runWithin, step_of_halted hhalt]
    · simp [runWithin, step_of_fault hr]

/-- The runner stops in a state that steps lead to within its budget. -/
theorem runWithin_cases : ∀ (n : Nat) (s : State),
    ∃ k t, k ≤ n ∧ Host.Core.run Sys2Proof.core k s = .next t ∧ runWithin n s = resultAt t
  | 0, s => ⟨0, s, le_rfl, rfl, rfl⟩
  | n + 1, s => by
    by_cases hrun : s.running = true
    · obtain ⟨u, hu⟩ := exists_step_eq_next hrun
      obtain ⟨k, t, hk, ht, hres⟩ := runWithin_cases n u
      exact ⟨k + 1, t, Nat.succ_le_succ hk, (core_run_succ_of_next hu).trans ht,
        (runWithin_succ_of_next hu).trans hres⟩
    · exact ⟨0, s, Nat.zero_le _, rfl, runWithin_of_not_running (n + 1) hrun⟩

/-- A state that is not running is where the runner stops, if steps lead to it within the budget. -/
theorem runWithin_of_core_run {t : State} (ht : ¬ t.running = true) :
    ∀ {k n : Nat} {s : State}, k ≤ n → Host.Core.run Sys2Proof.core k s = .next t →
      runWithin n s = resultAt t
  | 0, n, s, _, h => by
    cases h
    exact runWithin_of_not_running n ht
  | k + 1, n + 1, s, hk, h => by
    obtain ⟨u, hu, hrest⟩ := core_run_succ_cases h
    rw [runWithin_succ_of_next hu]
    exact runWithin_of_core_run ht (Nat.le_of_succ_le_succ hk) hrest

theorem not_running_of_halted {s : State} (h : s.halted = true) : ¬ s.running = true := by
  intro hrun
  obtain ⟨t, ht⟩ := exists_step_eq_next hrun
  cases ht.symm.trans (step_of_halted h)

theorem not_running_of_fault {s : State} {r : FaultRecord} (h : s.fault = some r) :
    ¬ s.running = true := by
  intro hrun
  obtain ⟨t, ht⟩ := exists_step_eq_next hrun
  cases ht.symm.trans (step_of_fault h)

/-! ### The runner and the steps -/

section
variable {n : Nat} {s : State}

theorem runWithin_eq_halted_iff {t : State} :
    runWithin n s = .halted t ↔
      ∃ k, k ≤ n ∧ Host.Core.run Sys2Proof.core k s = .next t ∧ t.halted = true := by
  refine ⟨fun h => ?_, fun ⟨k, hk, hrun, ht⟩ => ?_⟩
  · obtain ⟨k, u, hk, hrun, hres⟩ := runWithin_cases n s
    obtain ⟨rfl, ht⟩ := halted_of_resultAt (hres.symm.trans h)
    exact ⟨k, hk, hrun, ht⟩
  · exact (runWithin_of_core_run (not_running_of_halted ht) hk hrun).trans
      (resultAt_of_halted ht)

theorem runWithin_eq_failed_iff {r : FaultRecord} :
    runWithin n s = .failed r ↔
      ∃ k t, k ≤ n ∧ Host.Core.run Sys2Proof.core k s = .next t ∧ t.fault = some r := by
  refine ⟨fun h => ?_, fun ⟨k, t, hk, hrun, ht⟩ => ?_⟩
  · obtain ⟨k, t, hk, hrun, hres⟩ := runWithin_cases n s
    exact ⟨k, t, hk, hrun, fault_of_resultAt (hres.symm.trans h)⟩
  · exact (runWithin_of_core_run (not_running_of_fault ht) hk hrun).trans
      (resultAt_of_fault ht)

/-- A larger budget sees the same halt. -/
theorem runWithin_halted_mono {m : Nat} {t : State} (hnm : n ≤ m) (h : runWithin n s = .halted t) :
    runWithin m s = .halted t := by
  obtain ⟨k, hk, hrun⟩ := runWithin_eq_halted_iff.1 h
  exact runWithin_eq_halted_iff.2 ⟨k, hk.trans hnm, hrun⟩

/-- A larger budget sees the same failure. -/
theorem runWithin_failed_mono {m : Nat} {r : FaultRecord} (hnm : n ≤ m)
    (h : runWithin n s = .failed r) : runWithin m s = .failed r := by
  obtain ⟨k, t, hk, hrun⟩ := runWithin_eq_failed_iff.1 h
  exact runWithin_eq_failed_iff.2 ⟨k, t, hk.trans hnm, hrun⟩

end

/-- Settles O42: the two characterisations of the runner's answers. -/
theorem runnerAgreesWithTheSteps : Obligations.RunnerAgreesWithTheSteps := fun _ _ =>
  ⟨fun _ => runWithin_eq_halted_iff, fun _ => runWithin_eq_failed_iff⟩

/-- Settles O43: both budgets see what the larger of the two sees. -/
theorem runHasOneOutcome : Obligations.RunHasOneOutcome := by
  refine fun n m s => ⟨fun t u ht hu => ?_, fun r q hr hq => ?_, fun t r ht hr => ?_⟩
  · have ht' := runWithin_halted_mono (le_max_left n m) ht
    have hu' := runWithin_halted_mono (le_max_right n m) hu
    exact RunResult.halted.inj (ht'.symm.trans hu')
  · have hr' := runWithin_failed_mono (le_max_left n m) hr
    have hq' := runWithin_failed_mono (le_max_right n m) hq
    exact RunResult.failed.inj (hr'.symm.trans hq')
  · have ht' := runWithin_halted_mono (le_max_left n m) ht
    have hr' := runWithin_failed_mono (le_max_right n m) hr
    cases ht'.symm.trans hr'

end Sys2Proof.Machine
end

section
/-! SUPPORT. Building a launch from numbers (spec/30_encoding.md R40, spec/70_reset_and_hazards.md
R76 to R80). -/

namespace Sys2Proof.Machine

/-- Settles O44: both sides are the same record. -/
theorem launchStartsAFreshRun : Obligations.LaunchStartsAFreshRun :=
  ⟨fun _ _ _ _ => rfl, reset_eq_launch⟩

/-! ### Numbers as cells -/

theorem cellOfNat_of_le {v : Nat} (h : v ≤ 7) : cellOfNat v = .ok (BitVec.ofNat 3 v) :=
  if_pos (Nat.lt_succ_of_le h)

theorem cellOfNat_of_gt {v : Nat} (h : 7 < v) : cellOfNat v = .error (.cellAbove7 v) :=
  if_neg (Nat.not_lt.2 h)

/-- Numbers up to 7 are taken over as they are. -/
theorem exists_cellsOfNats_eq_ok : ∀ {vs : List Nat}, (∀ v ∈ vs, v ≤ 7) →
    ∃ P, cellsOfNats vs = .ok P ∧ P.map BitVec.toNat = vs
  | [], _ => ⟨[], rfl, rfl⟩
  | v :: vs, h => by
    obtain ⟨hv, hvs⟩ := List.forall_mem_cons.1 h
    obtain ⟨P, hP, hmap⟩ := exists_cellsOfNats_eq_ok hvs
    refine ⟨BitVec.ofNat 3 v :: P, by simp [cellsOfNats, cellOfNat_of_le hv, hP], ?_⟩
    rw [List.map_cons, hmap, BitVec.toNat_ofNat, Nat.mod_eq_of_lt (Nat.lt_succ_of_le hv)]

/-- A number above 7 is refused, wherever it stands. -/
theorem exists_cellsOfNats_eq_error : ∀ {vs : List Nat}, (∃ v ∈ vs, 7 < v) →
    ∃ e, cellsOfNats vs = .error e
  | v :: vs, h => by
    rcases Nat.lt_or_ge 7 v with hv | hv
    · exact ⟨_, by simp only [cellsOfNats, cellOfNat_of_gt hv]; rfl⟩
    · have hvs : ∃ u ∈ vs, 7 < u := (List.exists_mem_cons_iff ..).1 h |>.resolve_left hv.not_gt
      obtain ⟨e, he⟩ := exists_cellsOfNats_eq_error hvs
      exact ⟨e, by simp [cellsOfNats, cellOfNat_of_le hv, he]⟩

/-- Numbers are the contents of a program, or one of them is above 7 and they are refused. -/
theorem cellsOfNats_cases (vs : List Nat) :
    ((∀ v ∈ vs, v ≤ 7) ∧ ∃ P, cellsOfNats vs = .ok P ∧ P.map BitVec.toNat = vs) ∨
    ((∃ v ∈ vs, 7 < v) ∧ ∃ e, cellsOfNats vs = .error e) := by
  by_cases h : ∀ v ∈ vs, v ≤ 7
  · exact .inl ⟨h, exists_cellsOfNats_eq_ok h⟩
  · have habove : ∃ v ∈ vs, 7 < v := by simpa using h
    exact .inr ⟨habove, exists_cellsOfNats_eq_error habove⟩

/-! ### A launch -/

section
variable {w : Option Nat} {cells : List Nat} {a b c : Nat} {P : Memory}

theorem launchWith_of_error {e : DecodeError} (h : cellsOfNats cells = .error e) :
    launchWith w cells a b c = .error (.badCell e) := by
  simp [launchWith, h]

theorem launchWith_of_ok (h : cellsOfNats cells = .ok P) (hw : checkWidth w ⟨P, a, b, c⟩ = .ok ()) :
    launchWith w cells a b c = .ok (launch ⟨P, a, b, c⟩) := by
  simp [launchWith, h, hw]

theorem launchWith_of_width_error {e : LaunchError} (h : cellsOfNats cells = .ok P)
    (hw : checkWidth w ⟨P, a, b, c⟩ = .error e) : launchWith w cells a b c = .error e := by
  simp [launchWith, h, hw]

end

/-- Settles O45: with unbounded registers only the cells can be refused. -/
theorem launchRefusesNumbersAboveSeven : Obligations.LaunchRefusesNumbersAboveSeven := by
  intro cells a b c
  obtain ⟨hle, P, hP, hmap⟩ | ⟨habove, e, he⟩ := cellsOfNats_cases cells
  · have hok : launchNumbers cells a b c = .ok (launch ⟨P, a, b, c⟩) := launchWith_of_ok hP rfl
    refine ⟨⟨fun ⟨_, h⟩ => (nomatch hok.symm.trans h), fun ⟨v, hv, hgt⟩ => ?_⟩, fun s hs => ?_⟩
    · exact absurd (hle v hv) hgt.not_ge
    · cases hok.symm.trans hs
      exact ⟨hmap, rfl, rfl, rfl⟩
  · have hbad : launchNumbers cells a b c = .error (.badCell e) := launchWith_of_error he
    exact ⟨⟨fun _ => habove, fun _ => ⟨_, hbad⟩⟩, fun s hs => nomatch hbad.symm.trans hs⟩

/-! ### The check of a fixed width -/

/-- A width of at least 128 bits takes exactly the values that fit in it (R80). -/
theorem checkWidth_eq_ok_iff {w : Nat} {l : Launch} (hw : 128 ≤ w) :
    checkWidth (some w) l = .ok () ↔ FitsWidth w (launch l) := by
  have hmin : ¬ w < Config.minRegWidth := hw.not_gt
  unfold checkWidth
  simp only [hmin, if_false, FitsWidth, launch_A, launch_B, launch_C]
  constructor
  · intro h
    split_ifs at h with hA hB hC
    exact ⟨Nat.lt_of_not_le hA, Nat.lt_of_not_le hB, Nat.lt_of_not_le hC⟩
  · rintro ⟨hA, hB, hC⟩
    rw [if_neg hA.not_ge, if_neg hB.not_ge, if_neg hC.not_ge]

/-- What a launch that is taken has passed. -/
theorem launchWith_eq_ok {w : Option Nat} {cells : List Nat} {a b c : Nat} {s : State}
    (h : launchWith w cells a b c = .ok s) :
    (∀ v ∈ cells, v ≤ 7) ∧
      ∃ P, checkWidth w ⟨P, a, b, c⟩ = .ok () ∧ s = launch ⟨P, a, b, c⟩ := by
  obtain ⟨hle, P, hP, -⟩ | ⟨-, e, he⟩ := cellsOfNats_cases cells
  · cases hw : checkWidth w ⟨P, a, b, c⟩ with
    | ok u =>
      cases (launchWith_of_ok hP hw).symm.trans h
      exact ⟨hle, P, hw, rfl⟩
    | error e => cases (launchWith_of_width_error hP hw).symm.trans h
  · cases (launchWith_of_error he).symm.trans h

/-- Settles O46: the cells by `cellsOfNats_cases`, the values by `checkWidth_eq_ok_iff`. -/
theorem fixedWidthLaunchChecksItsValues : Obligations.FixedWidthLaunchChecksItsValues := by
  refine fun w cells a b c hw => ⟨⟨?taken, ?fits⟩, ?start⟩
  case taken =>
    rintro ⟨s, hs⟩
    obtain ⟨hle, P, hcheck, -⟩ := launchWith_eq_ok hs
    exact ⟨hle, (checkWidth_eq_ok_iff hw).1 hcheck⟩
  case fits =>
    rintro ⟨hle, hfits⟩
    obtain ⟨P, hP, -⟩ := exists_cellsOfNats_eq_ok hle
    exact ⟨_, launchWith_of_ok hP ((checkWidth_eq_ok_iff hw).2 hfits)⟩
  case start =>
    intro s hs
    obtain ⟨-, P, hcheck, rfl⟩ := launchWith_eq_ok hs
    exact (checkWidth_eq_ok_iff hw).1 hcheck

end Sys2Proof.Machine
end

section
/-! SUPPORT. Reading several cells of the store (spec/20_memory.md R23). -/

namespace Sys2Proof.Machine

/-- Cell `i` of a part of the store that lies inside it. -/
theorem getElem?_take_drop (P : Memory) {addr n i : Nat} (hi : i < n) :
    ((P.drop addr).take n)[i]? = readCell P (addr + i) := by
  rw [List.getElem?_take_of_lt hi, List.getElem?_drop, readCell]

theorem memRead_eq_some_iff (P : Memory) (addr n : Nat) (l : List Cell) :
    memRead P addr n = some l ↔ addr + n ≤ P.length ∧ (P.drop addr).take n = l := by
  simp [memRead]

/-- Settles O47: the cells read are those of the part of the store, and a list is known by its cells. -/
theorem memReadIsWholeOrNothing : Obligations.MemReadIsWholeOrNothing := by
  intro P addr n l
  rw [memRead_eq_some_iff]
  refine and_congr_right fun hin => ?_
  have hlen : ((P.drop addr).take n).length = n := by simp; omega
  constructor
  · rintro rfl
    exact ⟨hlen, fun i => getElem?_take_drop P⟩
  · rintro ⟨hl, hcells⟩
    refine List.ext_getElem? fun i => ?_
    rcases lt_or_ge i n with hi | hi
    · rw [getElem?_take_drop P hi, hcells i hi]
    · rw [List.getElem?_eq_none (by omega), List.getElem?_eq_none (by omega)]

end Sys2Proof.Machine
end

section
/-! SUPPORT. The block at its ports (spec/70_reset_and_hazards.md R82, R84, R89). -/

namespace Sys2Proof.Machine

/-! ### The clock edge -/

section
variable {inp : PortsIn} {s : State}

theorem clockEdge_of_start (h : inp.start = true) :
    clockEdge inp s = launch ⟨inp.prog, inp.a0, inp.b0, inp.c0⟩ := by
  simp [clockEdge, h]

theorem clockEdge_of_next (h : inp.start = false) {t : State} (ht : step s = .next t) :
    clockEdge inp s = t := by
  simp [clockEdge, h, ht]

theorem clockEdge_of_not_running (h : inp.start = false) (hs : ¬ s.running = true) :
    clockEdge inp s = s := by
  obtain hhalt | ⟨r, hr⟩ := (status_cases s).resolve_left hs
  · simp [clockEdge, h, step_of_halted hhalt]
  · simp [clockEdge, h, step_of_fault hr]

end

/-- Settles O50: `start` launches, and a finished run has no step to take. -/
theorem onlyStartLeavesAFinishedRun : Obligations.OnlyStartLeavesAFinishedRun := by
  refine fun inp s => ⟨clockEdge_of_start, fun h hs => clockEdge_of_not_running h ?_⟩
  obtain hhalt | hfault := hs
  · exact not_running_of_halted hhalt
  · obtain ⟨r, hr⟩ := s.faulted_iff.1 hfault
    exact not_running_of_fault hr

/-! ### The token port -/

/-- The token an instruction emits in a state, if any: only `out` with a legal operand emits one (R59). -/
def tokenOfInstr (i : Instr) (s : State) : Option Token :=
  match i with
  | .out x => (combo x s).map tokenOf
  | _ => none

/-- An instruction appends the token it emits and nothing else. -/
theorem exec_out_eq_append {i : Instr} {s t : State} (h : exec i s = .next t) :
    t.out = s.out ++ (tokenOfInstr i s).toList := by
  cases i with
  | out x =>
    obtain ⟨v, hv, rfl⟩ | ⟨rfl, rfl⟩ := withCombo_cases h
    · simp [tokenOfInstr, hv]
    · simp [tokenOfInstr]
  | _ => simpa [tokenOfInstr] using exec_out_of_ne_out h nofun

theorem tokenPort_of_not_running {s : State} (h : ¬ s.running = true) : tokenPort s = none :=
  if_neg h

/-- A lone cell emits nothing. -/
theorem tokenPort_of_incompletePair {s : State} (h : fetch s = none) : tokenPort s = none := by
  simp [tokenPort, h]

/-- The port shows the token of the instruction the step executes. -/
theorem tokenPort_of_pair {s : State} {op x : Cell} (hrun : s.running = true)
    (h : fetch s = some (op, x)) : tokenPort s = tokenOfInstr (decodePair op x) s := by
  simp only [tokenPort, hrun, h, if_true]
  cases decodePair op x <;> rfl

/-- A step appends to the output what the port shows before it. -/
theorem step_out_eq_append_tokenPort {s t : State} (h : step s = .next t) :
    t.out = s.out ++ (tokenPort s).toList := by
  obtain ⟨-, -, ⟨hlast, rfl⟩ | ⟨op, x, hop, hx, hexec⟩⟩ := step_cases h
  · have hfetch : fetch s = none := (fetch_eq_none_iff s).2 (by rw [← s.progLen_eq]; omega)
    simp [tokenPort_of_incompletePair hfetch]
  · have hfetch : fetch s = some (op, x) := (fetch_eq_some_iff s op x).2 ⟨hop, hx⟩
    rw [tokenPort_of_pair (running_of_step h) hfetch]
    exact exec_out_eq_append hexec

/-- Settles O48: a running state takes a step, and any other shows no token and holds. -/
theorem tokenPortCarriesTheOutput : Obligations.TokenPortCarriesTheOutput := by
  refine fun inp s h => ⟨?_, rfl⟩
  change (clockEdge inp s).out = s.out ++ (tokenPort s).toList
  by_cases hrun : s.running = true
  · obtain ⟨t, ht⟩ := exists_step_eq_next hrun
    rw [clockEdge_of_next h ht, step_out_eq_append_tokenPort ht]
  · simp [clockEdge_of_not_running h hrun, tokenPort_of_not_running hrun]

/-! ### The cause of a fault -/

/-- Settles O49: the kind's code and the location decide between the causes, and a jump's target is the
cell after the location, which then exists. -/
theorem faultCauseIsReadOffThePorts : Obligations.FaultCauseIsReadOffThePorts := by
  intro s r hinv hr
  obtain ⟨-, hmatch⟩ := hinv
  have hrec := eq_recordOf_of_recordMatches (hmatch r hr)
  obtain ⟨-, -, hcond⟩ := hmatch r hr
  cases hc : r.cause with
  | incompletePair =>
    simp only [hc] at hcond hrec
    rw [State.progLen_eq] at hcond
    simp [causeFromPorts, portsOf, faultCode, hr, hrec, recordOf, kindOfCause, hcond]
  | jumpOutOfRange x =>
    simp only [hc] at hcond hrec
    obtain ⟨-, hx, -⟩ := hcond
    have hlt : s.ip + 1 < s.prog.length := lt_progLen_of_readCell hx
    simp [causeFromPorts, portsOf, faultCode, hr, hrec, recordOf, kindOfCause, hlt.ne, hx]
  | combo7 =>
    simp only [hc] at hrec
    simp [causeFromPorts, portsOf, faultCode, hr, hrec, recordOf, kindOfCause]

end Sys2Proof.Machine
end
